-- ==== Sys2Proof/Word.lean ====
section
/-!
DEFINITION. The words of the block (00_scope.md section 6): a byte, the 16-bit length and offset, the
17-bit transmit counters. No value in this hardware is signed.
-/

namespace Sys2Proof

/-- `u8`. -/
abbrev Byte := BitVec 8

/-- `u16`: a frame-data length, `plen`, a buffer offset. -/
abbrev Half := BitVec 16

/-- `u17`: `tx.n` and `tx.idx` (10_state.md R16). -/
abbrev U17 := BitVec 17

end Sys2Proof
end

