-- ==== Sys2Proof/Config.lean ====
section
/-!
DEFINITION. What is fixed for the machine: the constants of 00_scope.md R3, the parameters of R4 with the
values the spec takes, and the free values (constants with no body: nothing can be proved of their value).
-/

namespace Sys2Proof.Config

/-- DELIM (R3): the byte that marks the start of a frame on the wire. -/
abbrev delim : Byte := 0x7E

/-- MAXLEN (R3): the largest frame-data length. -/
abbrev maxLen : Nat := 65535

/-- CSUM_BASE (R3). -/
abbrev csumBase : Byte := 0xFF

/-- TAG_TXREQ (R3). -/
abbrev tagTxReq : Byte := 0x00

/-- TAG_TXSTAT (R3). -/
abbrev tagTxStat : Byte := 0x89

/-- TAG_RXIND (R3). -/
abbrev tagRxInd : Byte := 0x80

/-- MINLEN_GENERIC (R3). -/
abbrev minGeneric : Nat := 1

/-- MINLEN_TXREQ (R3). -/
abbrev minTxReq : Nat := 11

/-- MINLEN_TXSTAT (R3). -/
abbrev minTxStat : Nat := 3

/-- MINLEN_RXIND (R3). -/
abbrev minRxInd : Nat := 11

/-- BROADCAST (R3, 20_memory.md R34), first wire byte most significant. -/
abbrev broadcast : BitVec 64 := 0x000000000000FFFF

/-- The size of `rxbuf` and of `txbuf` in bytes (10_state.md R18, R19): offsets 0..65534. -/
abbrev bufSize : Nat := 65535

/-- The two readings of TXSTAT_TRAILING the spec names (92_eei_decisions.md D16). -/
inductive Trailing
  | ignore
  | reject
  deriving DecidableEq, Repr

/-- TXSTAT_TRAILING (00_scope.md R4, 30_encoding.md R64): bytes after a TxStatus frame's three fixed bytes
are not examined. The spec's own choice D16 (log 17). -/
def txStatTrailing : Trailing := .ignore

/-- RX_TIMEOUT (R4, D22): none. No rule reads it; the source does not say what a timeout returns (log 18). -/
def rxTimeout : Option Nat := none

/-- CANCEL (R4, D22): absent. No rule reads it (log 18). -/
def cancel : Bool := false

/-- The type TErr (R4, D19): the opaque cause a transport error carries. A token; nothing computes on it
(DESIGN CHOICE, log 6). -/
structure TErr where
  token : Nat
  deriving DecidableEq, Repr

/-- FREE VALUE (log 10): what an operation finds at an offset of `rxbuf` that nothing has written
(10_state.md R27: unspecified). No rule reads such an offset in a state a run reaches. -/
opaque unwrittenRx : Nat → Byte

/-- FREE VALUE (log 10): what the TX sequencer sends for an offset of `txbuf` that nothing has written
(10_state.md R27: unspecified; U15: any value). -/
opaque unwrittenTx : Nat → Byte

/-- FREE VALUE (log 11): what stands at an offset of `txbuf` that the producer writes while a WRITEFRAME
call is in progress (U19: any value), one for each such write. -/
opaque disturbedTx : Nat → Byte

end Sys2Proof.Config
end

