-- ==== Sys2Proof/Syntax.lean ====
section
/-!
DEFINITION. The data the block moves (Frame, port record, parts, items) and its operations: `Instr` has one
constructor per row of spec/opcode_table.json. The block runs no program (30_encoding.md R50); an "instruction"
is an operation with its operands, and `Selection` is how one is presented: R50's column "selected by".
-/

namespace Sys2Proof

/-- `bytes8` (10_state.md R10, R11(a)): exactly eight bytes, in wire order, `b0` first. A byte string, not an
integer (20_memory.md R34). -/
structure Addr where
  (b0 b1 b2 b3 b4 b5 b6 b7 : Byte)
  deriving DecidableEq, Repr

/-- A Frame (10_state.md R10): a closed union of four variants; equality is field by field. -/
inductive Frame
  | generic (tag : Byte) (raw : List Byte)
  | txRequest (id : Byte) (dest : Addr) (options : Byte) (payload : List Byte)
  | txStatus (id status : Byte)
  | rxIndicate (source : Addr) (rssi options : Byte) (payload : List Byte)
  deriving DecidableEq, Repr

/-- The Frame port record (30_encoding.md R60) as the transmit frame port carries it; the variable part is
in `txbuf`. `kind` 0 GENERIC, 1 TXREQ, 2 TXSTAT, 3 RXIND: all four codes are used. -/
structure PortRecord where
  kind    : BitVec 2
  tag     : Byte
  id      : Byte
  addr    : BitVec 64
  options : Byte
  status  : Byte
  rssi    : Byte
  plen    : Half
  deriving DecidableEq, Repr

/-- A part of PACK (40_bytecodec.md R74): a single byte or a byte sequence. -/
inductive Part
  | byte (b : Byte)
  | bytes (bs : List Byte)
  deriving DecidableEq, Repr

/-- The result of DECODE and of its arms (41_framemodel_decode.md R80): `Ok(Frame)` or
`Error(MalformedFrameData)`, the only error DECODE has. -/
inductive DecodeResult
  | ok (f : Frame)
  | malformed
  deriving DecidableEq, Repr

/-- An item of the receive byte channel (10_state.md R20): a byte or an error token, never both. -/
inductive Item
  | byte (b : Byte)
  | err (e : Config.TErr)
  deriving DecidableEq, Repr

/-- The operations: one constructor per row of spec/opcode_table.json. -/
inductive Instr
  /-- FRAME (R51): the envelope `7E`, length of `data`, `data`, `csum`; `csum` need not be right. -/
  | frame (data : List Byte) (csum : Byte)
  /-- DEC.TXREQ (R82) on the frame data `00 rest`. -/
  | decTxReq (rest : List Byte)
  /-- DEC.TXSTAT (R83) on the frame data `89 rest`. -/
  | decTxStat (rest : List Byte)
  /-- DEC.RXIND (R84) on the frame data `80 rest`. -/
  | decRxInd (rest : List Byte)
  /-- DEC.GENERIC (R85) on the frame data `tag raw`. -/
  | decGeneric (tag : Byte) (raw : List Byte)
  /-- ENC.GENERIC (R92): kind 0 of the port record; `raw` is `txbuf[0..plen-1]`. -/
  | encGeneric (tag : Byte) (plen : Half)
  /-- ENC.TXREQ (R91): kind 1; `payload` is `txbuf[0..plen-1]`. -/
  | encTxReq (id : Byte) (addr : BitVec 64) (options : Byte) (plen : Half)
  /-- ENC.TXSTAT (R93): kind 2. -/
  | encTxStat (id status : Byte)
  /-- ENC.RXIND (R94): kind 3; `payload` is `txbuf[0..plen-1]`. -/
  | encRxInd (addr : BitVec 64) (rssi options : Byte) (plen : Half)
  /-- DECODE (R80). -/
  | decode (frameData : List Byte)
  /-- ENCODE (R90). -/
  | encode (f : Frame)
  /-- CHECKSUM (R70). -/
  | checksum (data : List Byte)
  /-- VERIFY (R71). -/
  | verify (data : List Byte) (received : Byte)
  /-- ENC16 (R72), on an unbounded natural number (D18). -/
  | enc16 (n : Nat)
  /-- DEC16 (R73) on exactly two bytes. -/
  | dec16 (b0 b1 : Byte)
  /-- PACK (R74). -/
  | pack (parts : List Part)
  /-- READFRAME (R100 to R110): one turn of the RX sequencer. -/
  | readFrame
  /-- WRITEFRAME (R120 to R127): one turn of the TX sequencer. -/
  | writeFrame
  /-- RESET (R160). -/
  | reset
  deriving DecidableEq, Repr

/-- The functions that wiring selects (R50): no bit pattern names them. -/
inductive FnCall
  | decode (frameData : List Byte)
  | encode (f : Frame)
  | checksum (data : List Byte)
  | verify (data : List Byte) (received : Byte)
  | enc16 (n : Nat)
  | dec16 (b0 b1 : Byte)
  | pack (parts : List Part)
  deriving DecidableEq, Repr

/-- The ports that select an operation by their own handshake (R50). -/
inductive PortName
  | receive
  | transmit
  | rst
  deriving DecidableEq, Repr

/-- How an operation is presented (R50, "selected by"; DESIGN CHOICE as a type, log 4). -/
inductive Selection
  /-- an envelope on the receive byte channel (R51) -/
  | envelope (bytes : List Byte)
  /-- frame data at FrameModel: the tag byte selects the arm (R57) -/
  | frameData (bytes : List Byte)
  /-- a record at the transmit frame port: `kind` selects the arm (R60) -/
  | record (r : PortRecord)
  /-- a function used where it is wired -/
  | wired (f : FnCall)
  /-- a port's own handshake -/
  | port (p : PortName)
  deriving DecidableEq, Repr

/-- Why a selection is none of the table's operations. -/
inductive DecodeError
  /-- the envelope does not start with 0x7E -/
  | noDelimiter
  /-- the envelope ends before its checksum byte -/
  | truncated
  /-- bytes follow the envelope's checksum byte -/
  | overlong
  /-- empty frame data has no tag, so it selects no DEC arm (R81) -/
  | noTag
  deriving DecidableEq, Repr

end Sys2Proof
end

