-- ==== Sys2Proof/Machine/Codec.lean ====
section
/-!
DEFINITION. The value-level functions: ByteCodec (40_bytecodec.md) and FrameModel (41_framemodel_decode.md,
42_framemodel_encode.md). They are pure; the sequencers and the decoder of operations use them.
-/

namespace Sys2Proof.Machine

/-! ### ByteCodec -/

/-- The 8-bit wrapped sum of R70, byte after byte from 0 (R75(a)). -/
def sum8 (data : List Byte) : Byte := data.foldl (fun s b => s + b) 0

/-- CHECKSUM (R70): additive, not Fletcher and not exclusive-or (90_conflicts.md C1). -/
def checksum (data : List Byte) : Byte := Config.csumBase - sum8 data

/-- VERIFY (R71). -/
def verify (data : List Byte) (received : Byte) : Bool := checksum data == received

/-- VERIFY from a running sum (R71, the form for hardware; D31): `(sum + received) mod 256 = 0xFF`. -/
def verifySum (sum received : Byte) : Bool := sum + received == 0xFF

/-- ENC16 (R72): most significant byte first; above 65535 the encoding of `n mod 65536` (D18). -/
def enc16 (n : Nat) : List Byte := [BitVec.ofNat 8 (n / 256), BitVec.ofNat 8 n]

/-- DEC16 (R73): `256 * zext_16(b[0]) + zext_16(b[1])`. -/
def dec16 (b0 b1 : Byte) : Half := 256 * b0.setWidth 16 + b1.setWidth 16

/-- The bytes one part of PACK contributes (R74). -/
def partBytes : Part → List Byte
  | .byte b => [b]
  | .bytes bs => bs

/-- PACK (R74): all parts in argument order, no separators. -/
def pack (parts : List Part) : List Byte := parts.flatMap partBytes

/-- The envelope of frame data (R51): `PACK(0x7E, ENC16(L), frameData, CHECKSUM(frameData))`. -/
def envelope (frameData : List Byte) : List Byte :=
  pack [.byte Config.delim, .bytes (enc16 frameData.length), .bytes frameData, .byte (checksum frameData)]

/-! ### Fields of frame data (R58) -/

/-- `d[i]`. The arms read it only below `len(d)`. -/
def byteOf (d : List Byte) (i : Nat) : Byte := d.getD i 0

/-- `d[i..i+7]` as an address: the bytes at their indices, in index order (R34, R58(c)). -/
def addrOf (d : List Byte) (i : Nat) : Addr :=
  ⟨byteOf d i, byteOf d (i + 1), byteOf d (i + 2), byteOf d (i + 3),
   byteOf d (i + 4), byteOf d (i + 5), byteOf d (i + 6), byteOf d (i + 7)⟩

/-- An address as its eight bytes in wire order (R34). -/
def addrBytes (a : Addr) : List Byte := [a.b0, a.b1, a.b2, a.b3, a.b4, a.b5, a.b6, a.b7]

/-! ### DECODE and its arms; the operand is the whole frame data -/

/-- DEC.TXREQ (R82). -/
def decodeTxReq (d : List Byte) : DecodeResult :=
  if d.length < Config.minTxReq then .malformed
  else .ok (.txRequest (byteOf d 1) (addrOf d 2) (byteOf d 10) (d.drop 11))

/-- DEC.TXSTAT (R83); what follows the three fixed bytes is dropped (R64, D16, log 17). -/
def decodeTxStat (d : List Byte) : DecodeResult :=
  if d.length < Config.minTxStat then .malformed
  else if Config.txStatTrailing = .reject ∧ Config.minTxStat < d.length then .malformed
  else .ok (.txStatus (byteOf d 1) (byteOf d 2))

/-- DEC.RXIND (R84). -/
def decodeRxInd (d : List Byte) : DecodeResult :=
  if d.length < Config.minRxInd then .malformed
  else .ok (.rxIndicate (addrOf d 1) (byteOf d 9) (byteOf d 10) (d.drop 11))

/-- DEC.GENERIC (R85), given the tag and what follows it: it cannot fail. -/
def decodeGeneric (tag : Byte) (raw : List Byte) : DecodeResult := .ok (.generic tag raw)

/-- DECODE (R80, R81): the empty check, then the arm by an exact match on the tag, in the order of R57. -/
def decodeFrame : List Byte → DecodeResult
  | [] => .malformed
  | tag :: rest =>
    if tag = Config.tagTxReq then decodeTxReq (tag :: rest)
    else if tag = Config.tagTxStat then decodeTxStat (tag :: rest)
    else if tag = Config.tagRxInd then decodeRxInd (tag :: rest)
    else decodeGeneric tag rest

/-! ### ENCODE and its arms -/

/-- ENC.TXREQ (R91). -/
def encodeTxReq (id : Byte) (dest : Addr) (options : Byte) (payload : List Byte) : List Byte :=
  pack [.byte Config.tagTxReq, .byte id, .bytes (addrBytes dest), .byte options, .bytes payload]

/-- ENC.GENERIC (R92): any tag, also a recognised one (D29). -/
def encodeGeneric (tag : Byte) (raw : List Byte) : List Byte := pack [.byte tag, .bytes raw]

/-- ENC.TXSTAT (R93). -/
def encodeTxStat (id status : Byte) : List Byte := pack [.byte Config.tagTxStat, .byte id, .byte status]

/-- ENC.RXIND (R94). -/
def encodeRxInd (source : Addr) (rssi options : Byte) (payload : List Byte) : List Byte :=
  pack [.byte Config.tagRxInd, .bytes (addrBytes source), .byte rssi, .byte options, .bytes payload]

/-- ENCODE (R90): one arm per variant, no error case. -/
def encodeFrame : Frame → List Byte
  | .txRequest id dest options payload => encodeTxReq id dest options payload
  | .generic tag raw => encodeGeneric tag raw
  | .txStatus id status => encodeTxStat id status
  | .rxIndicate source rssi options payload => encodeRxInd source rssi options payload

end Sys2Proof.Machine
end

