-- ==== Sys2Proof/WellFormed.lean ====
section
/-!
DEFINITION. Which operands an operation can carry. Only two operations are bounded by their encoding.
-/

namespace Sys2Proof

/-- The three tags R57 recognises before the catch-all arm. -/
def recognisedTag (tag : Byte) : Bool :=
  tag == Config.tagTxReq || tag == Config.tagTxStat || tag == Config.tagRxInd

/-- FRAME: the length is 16 bits (R51, R59). DEC.GENERIC: its tag is none of the three that R57 matches
first (R85). Every other operand of every other operation is allowed. -/
def wellFormed : Instr → Bool
  | .frame data _ => decide (data.length ≤ Config.maxLen)
  | .decTxReq _ => true
  | .decTxStat _ => true
  | .decRxInd _ => true
  | .decGeneric tag _ => !recognisedTag tag
  | .encGeneric _ _ => true
  | .encTxReq _ _ _ _ => true
  | .encTxStat _ _ => true
  | .encRxInd _ _ _ _ => true
  | .decode _ => true
  | .encode _ => true
  | .checksum _ => true
  | .verify _ _ => true
  | .enc16 _ => true
  | .dec16 _ _ => true
  | .pack _ => true
  | .readFrame => true
  | .writeFrame => true
  | .reset => true

end Sys2Proof
end

