-- ==== Sys2Proof/Decode.lean ====
section
/-!
DEFINITION. From a selection (R50's "selected by") to the operation it selects, total, rejecting by name; then
the encoder, written from the same tables (R51 to R55, R57, R60); then the numbering of spec/opcode_table.json.
-/

namespace Sys2Proof

open Sys2Proof.Machine

/-- FRAME (R51, R59): after the delimiter two length bytes, then that many bytes, then one, whatever their
values. -/
def decodeEnvelope : List Byte → Except DecodeError Instr
  | b :: hi :: lo :: rest =>
    if b = Config.delim then
      match rest.drop (dec16 hi lo).toNat with
      | [] => .error .truncated
      | [c] => .ok (.frame (rest.take (dec16 hi lo).toNat) c)
      | _ :: _ :: _ => .error .overlong
    else .error .noDelimiter
  | b :: _ => if b = Config.delim then .error .truncated else .error .noDelimiter
  | [] => .error .truncated

/-- The DEC arm by the tag byte, in the order of R57. -/
def decodeTag : List Byte → Except DecodeError Instr
  | [] => .error .noTag
  | tag :: rest =>
    if tag = Config.tagTxReq then .ok (.decTxReq rest)
    else if tag = Config.tagTxStat then .ok (.decTxStat rest)
    else if tag = Config.tagRxInd then .ok (.decRxInd rest)
    else .ok (.decGeneric tag rest)

/-- The ENC arm by `kind` alone; fields that do not belong to the kind are ignored (R60). -/
def decodeKind (r : PortRecord) : Instr :=
  if r.kind = 0 then .encGeneric r.tag r.plen
  else if r.kind = 1 then .encTxReq r.id r.addr r.options r.plen
  else if r.kind = 2 then .encTxStat r.id r.status
  else .encRxInd r.addr r.rssi r.options r.plen

/-- The functions of R50 that wiring selects. -/
def decodeWired : FnCall → Instr
  | .decode d => .decode d
  | .encode f => .encode f
  | .checksum d => .checksum d
  | .verify d c => .verify d c
  | .enc16 n => .enc16 n
  | .dec16 b0 b1 => .dec16 b0 b1
  | .pack ps => .pack ps

/-- The port operations of R50. -/
def decodePort : PortName → Instr
  | .receive => .readFrame
  | .transmit => .writeFrame
  | .rst => .reset

/-- The operation a selection selects (R50). -/
def decode : Selection → Except DecodeError Instr
  | .envelope bs => decodeEnvelope bs
  | .frameData bs => decodeTag bs
  | .record r => .ok (decodeKind r)
  | .wired f => .ok (decodeWired f)
  | .port p => .ok (decodePort p)

/-- A record of one kind, every field at 0. -/
def blankRecord (kind : BitVec 2) : PortRecord := ⟨kind, 0, 0, 0, 0, 0, 0, 0⟩

/-- The selection of an operation; a record field that does not belong to the kind is written 0. -/
def encode : Instr → Selection
  | .frame data csum => .envelope (Config.delim :: (enc16 data.length ++ data ++ [csum]))
  | .decTxReq rest => .frameData (Config.tagTxReq :: rest)
  | .decTxStat rest => .frameData (Config.tagTxStat :: rest)
  | .decRxInd rest => .frameData (Config.tagRxInd :: rest)
  | .decGeneric tag raw => .frameData (tag :: raw)
  | .encGeneric tag plen => .record { blankRecord 0 with tag := tag, plen := plen }
  | .encTxReq id addr options plen =>
    .record { blankRecord 1 with id := id, addr := addr, options := options, plen := plen }
  | .encTxStat id status => .record { blankRecord 2 with id := id, status := status }
  | .encRxInd addr rssi options plen =>
    .record { blankRecord 3 with addr := addr, rssi := rssi, options := options, plen := plen }
  | .decode d => .wired (.decode d)
  | .encode f => .wired (.encode f)
  | .checksum d => .wired (.checksum d)
  | .verify d c => .wired (.verify d c)
  | .enc16 n => .wired (.enc16 n)
  | .dec16 b0 b1 => .wired (.dec16 b0 b1)
  | .pack ps => .wired (.pack ps)
  | .readFrame => .port .receive
  | .writeFrame => .port .transmit
  | .reset => .port .rst

/-! ### spec/opcode_table.json's numbering: byte `k` of an operation is bits `8k+7..8k` -/

/-- Byte `k` of the word `w` of `nbits` bits; every bit above `nbits` is 0. -/
def tableByte (nbits w k : Nat) : Byte := BitVec.ofNat 8 (w % 2 ^ nbits / 256 ^ k)

/-- The first `n` bytes of the word. -/
def tableBytes (nbits w n : Nat) : List Byte := (List.range n).map (tableByte nbits w)

/-- The least frame-data length of a tag's format (R52 to R55). -/
def leastLength (tag : Byte) : Nat :=
  if tag = Config.tagTxReq then Config.minTxReq
  else if tag = Config.tagTxStat then Config.minTxStat
  else if tag = Config.tagRxInd then Config.minRxInd
  else Config.minGeneric

/-- The selection a table word stands for (log 4): rows of format ENV match envelope byte 0, rows of the DEC
arms match the tag byte, so a word whose first byte is 0x7E is an envelope and any other is frame data. Operand
bytes above `nbits` are zeros: up to the checksum byte of an envelope, up to the least length of frame data. -/
def tableSelection (nbits w : Nat) : Selection :=
  if tableByte nbits w 0 = Config.delim then
    .envelope (tableBytes nbits w
      (max (nbits / 8) ((dec16 (tableByte nbits w 1) (tableByte nbits w 2)).toNat + 4)))
  else
    .frameData (tableBytes nbits w (max (nbits / 8) (leastLength (tableByte nbits w 0))))

/-- The operation the decoder reads from a word of spec/opcode_table.json. -/
def decodeTableWord (nbits w : Nat) : Option Instr := (decode (tableSelection nbits w)).toOption

end Sys2Proof
end

