-- ==== Sys2Proof/Machine/State.lean ====
section
/-!
DEFINITION. The state of the block and of what stands at its ports, as plain data: the registers of the two
sequencers (10_state.md R14, R16), the two buffers (R18, R19), the input wires and what the environment holds
(R20 to R23, R26), and the model's own fields, each marked.
-/

namespace Sys2Proof.Machine

/-- A byte memory: (offset, byte) pairs with offsets strictly rising (`Memory.wf`, Machine/Ops.lean). An offset
that is not listed has no value: nothing has written it (D33; log 10). -/
abbrev Memory := List Host.Cell

/-- `rx.phase` (R13); code 7 does not exist (U16, log 20). -/
inductive RxPhase
  | idle | hunt | lenHi | lenLo | data | csum | done
  deriving DecidableEq, Repr

/-- `tx.phase` (R13); code 3 does not exist (U16, log 20). -/
inductive TxPhase
  | idle | send | done
  deriving DecidableEq, Repr

/-- `rx.status` (R14, R140): the codes a receive call ends with. -/
inductive RxStatus
  | ok | transportError
  deriving DecidableEq, Repr

/-- `tx.status` (R16, R140): the codes a transmit call ends with. -/
inductive TxStatus
  | ok | transportError | valueOutOfRange
  deriving DecidableEq, Repr

/-- `ev_cause` (R140, R146): why a candidate frame was discarded. -/
inductive Event
  | checksumMismatch | malformedFrameData
  deriving DecidableEq, Repr

/-- The registers of the RX sequencer (R14). -/
structure RxRegs where
  phase  : RxPhase
  lenHi  : Byte
  len    : Half
  cnt    : Half
  sum    : Byte
  status : RxStatus
  cause  : Config.TErr
  deriving DecidableEq, Repr

/-- The registers of the TX sequencer (R16). -/
structure TxRegs where
  phase  : TxPhase
  frame  : PortRecord
  n      : U17
  idx    : U17
  sum    : Byte
  status : TxStatus
  cause  : Config.TErr
  deriving DecidableEq, Repr

/-- The transport's answer to one offered byte (R21): `tx_ready`, `tx_stop`, `tx_err` (which qualifies
`tx_stop`) and the cause. -/
structure TxAnswer where
  ready : Bool
  stop  : Bool
  err   : Bool
  cause : Config.TErr
  deriving DecidableEq, Repr

/-- What the transport holds (R20, R21, R26). -/
structure Line where
  rxItems   : List Item
  txAnswers : List TxAnswer
  txStream  : List Byte
  deriving DecidableEq, Repr

/-- What a READFRAME call returns: a Frame by value (D34) or a transport error with its cause (R108). -/
inductive ReadResult
  | frame (f : Frame)
  | transportError (e : Config.TErr)
  deriving DecidableEq, Repr

/-- What a WRITEFRAME call returns (R127): `wd_count`, `wd_status`, `wd_cause`. -/
structure WriteResult where
  count  : U17
  status : TxStatus
  cause  : Config.TErr
  deriving DecidableEq, Repr

/-- The consumer's wires at the receive frame port (R22) and the results it has taken, oldest first. -/
structure Consumer where
  rdReq   : Bool
  rfReady : Bool
  taken   : List ReadResult
  deriving DecidableEq, Repr

/-- The producer's wires at the transmit frame port (R23) and the results it has taken, oldest first. -/
structure Producer where
  wrReq    : Bool
  wrRecord : PortRecord
  wdReady  : Bool
  taken    : List WriteResult
  deriving DecidableEq, Repr

/-- What a value-level function returned (the model's own port, log 5). -/
inductive FnResult
  | decoded (r : DecodeResult)
  | bytes (bs : List Byte)
  | byte (b : Byte)
  | bool (v : Bool)
  | int (n : Half)
  deriving DecidableEq, Repr

/-- A move of an environment agent (R150, R154, R176). -/
inductive EnvMove
  /-- the transport's receive side has one more item to deliver -/
  | deliver (x : Item)
  /-- the transport's transmit side answers one more offered byte -/
  | answer (a : TxAnswer)
  /-- the consumer drives `rd_req` -/
  | rdReq (v : Bool)
  /-- the consumer drives `rf_ready` -/
  | rfReady (v : Bool)
  /-- the producer drives `wr_req` -/
  | wrReq (v : Bool)
  /-- the producer drives the record of the transmit frame port -/
  | wrRecord (r : PortRecord)
  /-- the producer drives `wd_ready` -/
  | wdReady (v : Bool)
  /-- the producer writes a byte of `txbuf` -/
  | writeTxbuf (offset : Half) (b : Byte)
  /-- `rst` = 1 at the next step boundary -/
  | raiseRst
  deriving DecidableEq, Repr

/-- One entry of the agenda: who moves next (R42, R154; log 1). -/
inductive Turn
  | op (w : Selection)
  | env (m : EnvMove)
  deriving DecidableEq, Repr

/-- The five writes of R148's table, with the cause a transport error carries. -/
inductive ErrorEntry
  | rxChecksumMismatch
  | rxMalformedFrameData
  | rxTransportError (e : Config.TErr)
  | txTransportError (e : Config.TErr)
  | txValueOutOfRange
  deriving DecidableEq, Repr

structure State where
  /-- the RX sequencer's registers -/
  rx       : RxRegs
  /-- the TX sequencer's registers -/
  tx       : TxRegs
  /-- R18, R31 -/
  rxbuf    : Memory
  /-- R19, R32 -/
  txbuf    : Memory
  /-- what the transport holds -/
  line     : Line
  consumer : Consumer
  producer : Producer
  /-- the reset input (R160) -/
  rst      : Bool
  /-- the model's own: every discard event so far, oldest first (R146); no rule reads it -/
  events   : List Event
  /-- the model's own: what the last used function returned (log 5); no rule reads it -/
  fnOut    : Option FnResult
  /-- the model's own: how many free values have been drawn (log 11) -/
  fresh    : Nat
  /-- the model's own: what happens next (log 1) -/
  agenda   : List Turn
  deriving DecidableEq, Repr

/-- Why the machine stops. No operation of the block raises one in a state of the invariant `BlockInv`
(Sys2Proof/Safety.lean). -/
inductive Fault
  /-- READFRAME in phase DATA with `rx.cnt` = 65535: `rxbuf` has no such offset (R18). Safe: only from a state
  no run reaches (R15). -/
  | rxbufOffset
  /-- the producer writes `txbuf` offset 65535, which does not exist (R19). Safe. -/
  | txbufOffset
  /-- WRITEFRAME in phase SEND with `tx.idx` outside the envelope: R123 defines no such byte. Safe: only from a
  state no run reaches (R17). -/
  | txIndexOutside
  deriving DecidableEq, Repr

/-- Why a step has no meaning. -/
inductive Refusal
  /-- an operation that has no meaning yet; raised by exec's arms alone. Safe. -/
  | notModelled (mnemonic : String)
  /-- step: the selection on the agenda is none of the table's operations (log 16). Safe. -/
  | notAnOperation (why : DecodeError)
  deriving DecidableEq, Repr

abbrev Out := Host.Outcome State Fault Refusal

/-- The record with every field 0 (DESIGN CHOICE where R27 says unspecified, log 8, 9). -/
def zeroRecord : PortRecord := ⟨0, 0, 0, 0, 0, 0, 0, 0⟩

/-- R27. `rx.cause`, `tx.cause`, `tx.frame`, the wires and what the environment holds are named by log 7, 8, 9
(DESIGN CHOICE); `rxbuf` and `txbuf` list nothing (log 10). -/
def State.reset : State where
  rx := ⟨.idle, 0, 0, 0, 0, .ok, ⟨0⟩⟩
  tx := ⟨.idle, zeroRecord, 0, 0, 0, .ok, ⟨0⟩⟩
  rxbuf := []
  txbuf := []
  line := ⟨[], [], []⟩
  consumer := ⟨false, false, []⟩
  producer := ⟨false, zeroRecord, false, []⟩
  rst := false
  events := []
  fnOut := none
  fresh := 0
  agenda := []

end Sys2Proof.Machine
end

