-- ==== Sys2Proof/Machine/Flags.lean ====
section
/-!
DEFINITION. The block has no condition codes (10_state.md R25). What stands here instead: the numeric codes of
the phases (R13), of the results and events (60_exceptions.md R140), and the judgement of a candidate frame (R105
to R107), which is used inside one step and not stored.
-/

namespace Sys2Proof.Machine

/-- R13. -/
def RxPhase.code : RxPhase → BitVec 3
  | .idle => 0 | .hunt => 1 | .lenHi => 2 | .lenLo => 3 | .data => 4 | .csum => 5 | .done => 6

/-- R13. -/
def TxPhase.code : TxPhase → BitVec 2
  | .idle => 0 | .send => 1 | .done => 2

/-- R140. -/
def RxStatus.code : RxStatus → BitVec 3
  | .ok => 0 | .transportError => 3

/-- R140. -/
def TxStatus.code : TxStatus → BitVec 3
  | .ok => 0 | .transportError => 3 | .valueOutOfRange => 4

/-- R140. -/
def Event.code : Event → BitVec 3
  | .checksumMismatch => 1 | .malformedFrameData => 2

/-- The judgement of a candidate frame `d` with running sum `sum` and received checksum `c`, in the order of
R147(a): first the checksum, then DECODE. `none` is acceptance (R105). -/
def judge (sum : Byte) (d : List Byte) (c : Byte) : Option Event :=
  if verifySum sum c then
    match decodeFrame d with
    | .ok _ => none
    | .malformed => some .malformedFrameData
  else some .checksumMismatch

end Sys2Proof.Machine
end

