-- ==== Sys2Proof/Machine/Operands.lean ====
section
/-!
DEFINITION. The operand forms: addresses at the port, the variable part in a buffer, the Frame a port record
stands for (30_encoding.md R60), its encoded length (R95, R121) and its bytes one at a time (R123).
-/

namespace Sys2Proof.Machine

/-- Wire byte `k` of the port's 64-bit address (R34, R60, R123): `addr[63-8k : 56-8k]`. -/
def addrByte (addr : BitVec 64) (k : Nat) : Byte := addr.extractLsb' (56 - 8 * k) 8

/-- The port's address as eight bytes, first wire byte from `addr[63:56]` (R34). -/
def addrOfPort (addr : BitVec 64) : Addr :=
  ⟨addrByte addr 0, addrByte addr 1, addrByte addr 2, addrByte addr 3,
   addrByte addr 4, addrByte addr 5, addrByte addr 6, addrByte addr 7⟩

/-- Eight bytes as the port's address, the first most significant (R34). -/
def addrToPort (a : Addr) : BitVec 64 :=
  a.b0 ++ a.b1 ++ a.b2 ++ a.b3 ++ a.b4 ++ a.b5 ++ a.b6 ++ a.b7

/-- What a memory lists at an offset: `none` where nothing has written it. -/
def Memory.byteAt (m : Memory) (a : Nat) : Option Byte :=
  match m with
  | [] => none
  | c :: m => if c.1 = a then some c.2 else Memory.byteAt m a

/-- A byte of `rxbuf` as an operation reads it; unwritten, a free value (log 10). -/
def rxByte (m : Memory) (a : Nat) : Byte := (Memory.byteAt m a).getD (Config.unwrittenRx a)

/-- A byte of `txbuf` as an operation reads it; unwritten, a free value (log 10). -/
def txByte (m : Memory) (a : Nat) : Byte := (Memory.byteAt m a).getD (Config.unwrittenTx a)

/-- `rxbuf[0..n-1]`. -/
def rxBytes (m : Memory) (n : Nat) : List Byte := (List.range n).map (rxByte m)

/-- `txbuf[0..n-1]`: the variable part of the Frame a producer presents (R32). -/
def txBytes (m : Memory) (n : Nat) : List Byte := (List.range n).map (txByte m)

/-- The Frame a port record stands for, its variable part in `txbuf` (R60, R32). -/
def frameOf (r : PortRecord) (txbuf : Memory) : Frame :=
  if r.kind = 0 then .generic r.tag (txBytes txbuf r.plen.toNat)
  else if r.kind = 1 then .txRequest r.id (addrOfPort r.addr) r.options (txBytes txbuf r.plen.toNat)
  else if r.kind = 2 then .txStatus r.id r.status
  else .rxIndicate (addrOfPort r.addr) r.rssi r.options (txBytes txbuf r.plen.toNat)

/-- `len(ENCODE(f))` from `kind` and `plen` alone (R95, R121), 17 bits wide: at most 65546 (R75(e)). -/
def encodedLen (r : PortRecord) : U17 :=
  if r.kind = 0 then 1 + r.plen.setWidth 17
  else if r.kind = 2 then 3
  else 11 + r.plen.setWidth 17

/-- `txbuf[k]`, `0 <= k < plen`, as a byte of the frame data (R123). -/
def variableByte (r : PortRecord) (txbuf : Memory) (k : Nat) : Option Byte :=
  if k < r.plen.toNat then some (txByte txbuf k) else none

/-- `d[j]` of R123's table. -/
def frameByte (r : PortRecord) (txbuf : Memory) (j : Nat) : Option Byte :=
  if r.kind = 0 then
    if j = 0 then some r.tag else variableByte r txbuf (j - 1)
  else if r.kind = 1 then
    if j = 0 then some Config.tagTxReq
    else if j = 1 then some r.id
    else if j < 10 then some (addrByte r.addr (j - 2))
    else if j = 10 then some r.options
    else variableByte r txbuf (j - 11)
  else if r.kind = 2 then
    if j = 0 then some Config.tagTxStat
    else if j = 1 then some r.id
    else if j = 2 then some r.status
    else none
  else
    if j = 0 then some Config.tagRxInd
    else if j < 9 then some (addrByte r.addr (j - 1))
    else if j = 9 then some r.rssi
    else if j = 10 then some r.options
    else variableByte r txbuf (j - 11)

/-- `env(i)` of R123: the byte the TX sequencer offers at index `i`, the checksum from the running sum
(D31). `none` where R123 defines no byte. -/
def envelopeByte (t : TxRegs) (txbuf : Memory) (i : Nat) : Option Byte :=
  if i = 0 then some Config.delim
  else if i = 1 then (enc16 t.n.toNat)[0]?
  else if i = 2 then (enc16 t.n.toNat)[1]?
  else if i < t.n.toNat + 3 then frameByte t.frame txbuf (i - 3)
  else if i = t.n.toNat + 3 then some (Config.csumBase - t.sum)
  else none

end Sys2Proof.Machine
end

