-- ==== Sys2Proof/Machine/Ops.lean ====
section
/-!
DEFINITION. The named operations over the state that the meanings share: one setter per field, the stores to the
two buffers, the streams, taking an error (R148) and the two returns from a call (R149).
-/

namespace Sys2Proof.Machine

/-! ### Setters -/

def State.setRx (s : State) (v : RxRegs) : State := { s with rx := v }
def State.setTx (s : State) (v : TxRegs) : State := { s with tx := v }
def State.setRxbuf (s : State) (v : Memory) : State := { s with rxbuf := v }
def State.setTxbuf (s : State) (v : Memory) : State := { s with txbuf := v }
def State.setLine (s : State) (v : Line) : State := { s with line := v }
def State.setConsumer (s : State) (v : Consumer) : State := { s with consumer := v }
def State.setProducer (s : State) (v : Producer) : State := { s with producer := v }
def State.setRst (s : State) (v : Bool) : State := { s with rst := v }
def State.setEvents (s : State) (v : List Event) : State := { s with events := v }
def State.setFnOut (s : State) (v : Option FnResult) : State := { s with fnOut := v }
def State.setFresh (s : State) (v : Nat) : State := { s with fresh := v }
def State.setAgenda (s : State) (v : List Turn) : State := { s with agenda := v }

/-- A value-level function writes no state of the block (40_bytecodec.md); its result goes to the model's own
result port (log 5). -/
def State.returns (s : State) (v : FnResult) : State := s.setFnOut (some v)

/-- `rx.phase <- p`. -/
def State.rxGoto (s : State) (p : RxPhase) : State := s.setRx { s.rx with phase := p }

/-- `tx.phase <- p`. -/
def State.txGoto (s : State) (p : TxPhase) : State := s.setTx { s.tx with phase := p }

/-! ### The two byte memories -/

/-- The form of a memory: offsets strictly rising and below the size of the buffers. An unlisted offset reads
as no value, so no entry can equal what an unlisted offset reads as. -/
def Memory.wf (m : Memory) : Bool :=
  decide (m.Pairwise (fun c d => c.1 < d.1)) && m.all (fun c => decide (c.1 < Config.bufSize))

/-- Store one byte, keeping the form. -/
def Memory.store (m : Memory) (a : Nat) (b : Byte) : Memory :=
  match m with
  | [] => [(a, b)]
  | c :: m =>
    if a < c.1 then (a, b) :: c :: m
    else if a = c.1 then (a, b) :: m
    else c :: Memory.store m a b

/-- `MemWrite(rxbuf + k, 1, b)` (R104); offset 65535 does not exist (R18). -/
def storeRx (k : Nat) (b : Byte) (s : State) : Out :=
  if k < Config.bufSize then .next (s.setRxbuf (s.rxbuf.store k b)) else .fault .rxbufOffset

/-! ### The streams -/

/-- The items the transport holds for the receive channel. -/
def State.setItems (s : State) (xs : List Item) : State := s.setLine { s.line with rxItems := xs }

/-- The answers the transport's transmit side will give. -/
def State.setAnswers (s : State) (as : List TxAnswer) : State := s.setLine { s.line with txAnswers := as }

/-- The transport has accepted one more byte (R38). -/
def State.sendByte (s : State) (b : Byte) : State :=
  s.setLine { s.line with txStream := s.line.txStream ++ [b] }

/-- `emit EV(cause)` (R146). -/
def State.emit (s : State) (e : Event) : State := s.setEvents (s.events ++ [e])

/-! ### Taking an error (R148): exactly the writes of its table -/

def raiseError (e : ErrorEntry) (s : State) : State :=
  match e with
  | .rxChecksumMismatch => (s.emit .checksumMismatch).rxGoto .hunt
  | .rxMalformedFrameData => (s.emit .malformedFrameData).rxGoto .hunt
  | .rxTransportError e => s.setRx { s.rx with status := .transportError, cause := e, phase := .done }
  | .txTransportError e => s.setTx { s.tx with status := .transportError, cause := e, phase := .done }
  | .txValueOutOfRange => s.setTx { s.tx with status := .valueOutOfRange, idx := 0, phase := .done }

/-- The error a discard event stands for (R106, R107). -/
def discardEntry : Event → ErrorEntry
  | .checksumMismatch => .rxChecksumMismatch
  | .malformedFrameData => .rxMalformedFrameData

/-! ### The return from a call (R149): the result is taken and the sequencer is IDLE -/

/-- The candidate frame's bytes: `rxbuf[0..rx.len-1]`. -/
def candidate (s : State) : List Byte := rxBytes s.rxbuf s.rx.len.toNat

/-- The result a READFRAME call presents in DONE (R105, R108): the Frame is `DECODE` of the bytes that stay in
`rxbuf`. Nothing in a state no run reaches, where status is OK and the bytes do not decode (R15; log 22). -/
def readResult (s : State) : Option ReadResult :=
  match s.rx.status with
  | .transportError => some (.transportError s.rx.cause)
  | .ok =>
    match decodeFrame (candidate s) with
    | .ok f => some (.frame f)
    | .malformed => none

/-- RX.TAKE (R109). -/
def rxReturn (s : State) : State :=
  (s.setConsumer { s.consumer with taken := s.consumer.taken ++ (readResult s).toList }).rxGoto .idle

/-- The result a WRITEFRAME call presents in DONE (R127). -/
def writeResult (s : State) : WriteResult := ⟨s.tx.idx, s.tx.status, s.tx.cause⟩

/-- TX.TAKE (R127). -/
def txReturn (s : State) : State :=
  (s.setProducer { s.producer with taken := s.producer.taken ++ [writeResult s] }).txGoto .idle

end Sys2Proof.Machine
end

