-- ==== Sys2Proof/Machine/Block.lean ====
section
/-!
DEFINITION. RESET (70_reset_and_hazards.md R160).
-/

namespace Sys2Proof.Machine

/-- RESET (R160): exactly these writes. `rx.cause`, `tx.cause`, `tx.frame` and the buffers are not written; the
transport, the wires and the results already taken are the environment's (R26, R161). -/
def execReset (s : State) : Out :=
  .next ((s.setRx { s.rx with phase := .idle, lenHi := 0, len := 0, cnt := 0, sum := 0, status := .ok }).setTx
    { s.tx with phase := .idle, n := 0, idx := 0, sum := 0, status := .ok })

end Sys2Proof.Machine
end

