-- ==== Sys2Proof/Machine/ByteCodec.lean ====
section
/-!
DEFINITION. The meanings of FRAME and of the ByteCodec operations (40_bytecodec.md). The ByteCodec operations
read only their operands and write no state of the block.
-/

namespace Sys2Proof.Machine

/-- FRAME (R51): the envelope `7E`, the length of `data`, `data`, `csum` arrives; its bytes join, in envelope
order, the items the transport holds (R20, R40). The RX sequencer takes them one a step (R36; log 3). -/
def execFrame (data : List Byte) (csum : Byte) (s : State) : Out :=
  .next (s.setItems (s.line.rxItems ++
    (pack [.byte Config.delim, .bytes (enc16 data.length), .bytes data, .byte csum]).map Item.byte))

/-- CHECKSUM (R70). -/
def execChecksum (data : List Byte) (s : State) : Out := .next (s.returns (.byte (checksum data)))

/-- VERIFY (R71). -/
def execVerify (data : List Byte) (received : Byte) (s : State) : Out :=
  .next (s.returns (.bool (verify data received)))

/-- ENC16 (R72). -/
def execEnc16 (n : Nat) (s : State) : Out := .next (s.returns (.bytes (enc16 n)))

/-- DEC16 (R73). -/
def execDec16 (b0 b1 : Byte) (s : State) : Out := .next (s.returns (.int (dec16 b0 b1)))

/-- PACK (R74). -/
def execPack (parts : List Part) (s : State) : Out := .next (s.returns (.bytes (pack parts)))

end Sys2Proof.Machine
end

