-- ==== Sys2Proof/Machine/FrameModel.lean ====
section
/-!
DEFINITION. The meanings of the FrameModel operations: DECODE and its four arms (41_framemodel_decode.md), ENCODE
and its four arms (42_framemodel_encode.md). They write no state of the block. An ENC arm reads the variable part
from `txbuf` (30_encoding.md R60, 20_memory.md R32). R19 names one reader of `txbuf`, the TX sequencer in SEND; that an
ENC arm used as an operation of its own reads it too, in every `tx.phase`, is the model's choice (DESIGN CHOICE, log 25).
-/

namespace Sys2Proof.Machine

/-- DECODE (R80). -/
def execDecode (frameData : List Byte) (s : State) : Out := .next (s.returns (.decoded (decodeFrame frameData)))

/-- DEC.TXREQ (R82). -/
def execDecTxReq (rest : List Byte) (s : State) : Out :=
  .next (s.returns (.decoded (decodeTxReq (Config.tagTxReq :: rest))))

/-- DEC.TXSTAT (R83). -/
def execDecTxStat (rest : List Byte) (s : State) : Out :=
  .next (s.returns (.decoded (decodeTxStat (Config.tagTxStat :: rest))))

/-- DEC.RXIND (R84). -/
def execDecRxInd (rest : List Byte) (s : State) : Out :=
  .next (s.returns (.decoded (decodeRxInd (Config.tagRxInd :: rest))))

/-- DEC.GENERIC (R85). -/
def execDecGeneric (tag : Byte) (raw : List Byte) (s : State) : Out :=
  .next (s.returns (.decoded (decodeGeneric tag raw)))

/-- ENCODE (R90). -/
def execEncode (f : Frame) (s : State) : Out := .next (s.returns (.bytes (encodeFrame f)))

/-- ENC.GENERIC (R92); `txbuf` is read in every `tx.phase` (log 25). -/
def execEncGeneric (tag : Byte) (plen : Half) (s : State) : Out :=
  .next (s.returns (.bytes (encodeGeneric tag (txBytes s.txbuf plen.toNat))))

/-- ENC.TXREQ (R91); `txbuf` is read in every `tx.phase` (log 25). -/
def execEncTxReq (id : Byte) (addr : BitVec 64) (options : Byte) (plen : Half) (s : State) : Out :=
  .next (s.returns (.bytes (encodeTxReq id (addrOfPort addr) options (txBytes s.txbuf plen.toNat))))

/-- ENC.TXSTAT (R93): `txbuf` is not read (R32). -/
def execEncTxStat (id status : Byte) (s : State) : Out := .next (s.returns (.bytes (encodeTxStat id status)))

/-- ENC.RXIND (R94); `txbuf` is read in every `tx.phase` (log 25). -/
def execEncRxInd (addr : BitVec 64) (rssi options : Byte) (plen : Half) (s : State) : Out :=
  .next (s.returns (.bytes (encodeRxInd (addrOfPort addr) rssi options (txBytes s.txbuf plen.toNat))))

end Sys2Proof.Machine
end

