-- ==== Sys2Proof/Machine/FrameStreamRx.lean ====
section
/-!
DEFINITION. READFRAME (43_framestream_rx.md R100 to R110): the delimiter detector, the packet assembler and the
resynchroniser, one transfer event a turn.
-/

namespace Sys2Proof.Machine

/-- RX.HUNT (R101): all 8 bits are compared; a byte that is not the delimiter is dropped. -/
def rxHunt (b : Byte) (s : State) : State :=
  if b = Config.delim then s.rxGoto .lenHi else s.rxGoto .hunt

/-- RX.LEN_HI (R102): every value is accepted. -/
def rxLenHi (b : Byte) (s : State) : State := s.setRx { s.rx with lenHi := b, phase := .lenLo }

/-- RX.LEN_LO (R103): a length of 0 skips phase DATA (D30). -/
def rxLenLo (b : Byte) (s : State) : State :=
  s.setRx { s.rx with
    len := dec16 s.rx.lenHi b, cnt := 0, sum := 0,
    phase := if dec16 s.rx.lenHi b = 0 then .csum else .data }

/-- RX.DATA (R104): the byte goes to `rxbuf[rx.cnt]`; its value plays no part in the control (R62). -/
def rxData (b : Byte) (s : State) : Out :=
  storeRx s.rx.cnt.toNat b (s.setRx { s.rx with
    sum := s.rx.sum + b, cnt := s.rx.cnt + 1,
    phase := if s.rx.cnt + 1 = s.rx.len then .csum else .data })

/-- RX.CSUM: accept (R105), or discard and hunt again with one event (R106, R107). -/
def rxCsum (c : Byte) (s : State) : State :=
  match judge s.rx.sum (candidate s) c with
  | none => s.setRx { s.rx with status := .ok, phase := .done }
  | some e => raiseError (discardEntry e) s

/-- One byte taken from the receive channel, by the phase it is taken in. IDLE and DONE take none (R20). -/
def rxByteTaken (b : Byte) (s : State) : Out :=
  match s.rx.phase with
  | .idle => .next s
  | .hunt => .next (rxHunt b s)
  | .lenHi => .next (rxLenHi b s)
  | .lenLo => .next (rxLenLo b s)
  | .data => rxData b s
  | .csum => .next (rxCsum b s)
  | .done => .next s

/-- One item taken (R20, R37): it is gone from the transport; an error token ends the call (R108). -/
def rxTake (s : State) : Out :=
  match s.line.rxItems with
  | [] => .next s
  | .byte b :: rest => rxByteTaken b (s.setItems rest)
  | .err e :: rest => .next (raiseError (.rxTransportError e) (s.setItems rest))

/-- READFRAME: one turn of the RX sequencer. In IDLE a request is accepted (R100); in HUNT to CSUM one item is
taken, and with none there the sequencer waits unchanged (R110); in DONE the result is taken (R109). -/
def execReadFrame (s : State) : Out :=
  match s.rx.phase with
  | .idle => if s.consumer.rdReq then .next (s.rxGoto .hunt) else .next s
  | .done => if s.consumer.rfReady then .next (rxReturn s) else .next s
  | .hunt => rxTake s
  | .lenHi => rxTake s
  | .lenLo => rxTake s
  | .data => rxTake s
  | .csum => rxTake s

end Sys2Proof.Machine
end

