-- ==== Sys2Proof/Machine/FrameStreamTx.lean ====
section
/-!
DEFINITION. WRITEFRAME (44_framestream_tx.md R120 to R127): the envelope serialiser, one transfer event a turn.
-/

namespace Sys2Proof.Machine

/-- Accept, prepare, range check, in one step (R120, R121, R122): a Frame too long is refused before anything is
sent. -/
def txAccept (s : State) : State :=
  let t := { s.tx with frame := s.producer.wrRecord, n := encodedLen s.producer.wrRecord, idx := 0, sum := 0 }
  if 65535 < (encodedLen s.producer.wrRecord).toNat then raiseError .txValueOutOfRange (s.setTx t)
  else s.setTx { t with phase := .send }

/-- The byte `b` offered at `tx.idx` is accepted (R124): only frame-data bytes enter the sum. -/
def txAccepted (b : Byte) (s : State) : State :=
  (s.sendByte b).setTx { s.tx with
    sum := if 3 ≤ s.tx.idx.toNat ∧ s.tx.idx.toNat ≤ s.tx.n.toNat + 2 then s.tx.sum + b else s.tx.sum,
    idx := s.tx.idx + 1 }

/-- The end of the write, if it ends here: with a transport error (R126), complete (R125(a)), short (R125(b)).
`tx_err` means something only with `tx_stop` (R21; log 14). -/
def txEnd (a : TxAnswer) (s : State) : State :=
  if a.stop && a.err then raiseError (.txTransportError a.cause) s
  else if s.tx.idx.toNat = s.tx.n.toNat + 4 then s.setTx { s.tx with status := .ok, phase := .done }
  else if a.stop then s.setTx { s.tx with status := .ok, phase := .done }
  else s

/-- The transport's answer to the byte offered at `tx.idx` (R123 to R126). -/
def txAnswered (a : TxAnswer) (s : State) : Out :=
  match envelopeByte s.tx s.txbuf s.tx.idx.toNat with
  | none => .fault .txIndexOutside
  | some b => .next (txEnd a (if a.ready then txAccepted b s else s))

/-- In SEND: with no answer from the transport the sequencer waits with the same byte offered (R128). -/
def txSend (s : State) : Out :=
  match s.line.txAnswers with
  | [] => .next s
  | a :: rest => txAnswered a (s.setAnswers rest)

/-- WRITEFRAME: one turn of the TX sequencer. In IDLE a request is accepted (R120); in SEND the transport
answers the offered byte; in DONE the result is taken (R127). -/
def execWriteFrame (s : State) : Out :=
  match s.tx.phase with
  | .idle => if s.producer.wrReq then .next (txAccept s) else .next s
  | .send => txSend s
  | .done => if s.producer.wdReady then .next (txReturn s) else .next s

end Sys2Proof.Machine
end

