-- ==== Sys2Proof/Machine/Dispatch.lean ====
section
/-! DEFINITION. One arm per operation. -/

namespace Sys2Proof.Machine

def exec (i : Instr) (s : State) : Host.Outcome State Fault Refusal :=
  match i with
  | .frame data csum => Sys2Proof.Machine.execFrame data csum s
  | .decTxReq rest => Sys2Proof.Machine.execDecTxReq rest s
  | .decTxStat rest => Sys2Proof.Machine.execDecTxStat rest s
  | .decRxInd rest => Sys2Proof.Machine.execDecRxInd rest s
  | .decGeneric tag raw => Sys2Proof.Machine.execDecGeneric tag raw s
  | .encGeneric tag plen => Sys2Proof.Machine.execEncGeneric tag plen s
  | .encTxReq id addr options plen => Sys2Proof.Machine.execEncTxReq id addr options plen s
  | .encTxStat id status => Sys2Proof.Machine.execEncTxStat id status s
  | .encRxInd addr rssi options plen => Sys2Proof.Machine.execEncRxInd addr rssi options plen s
  | .decode frameData => Sys2Proof.Machine.execDecode frameData s
  | .encode f => Sys2Proof.Machine.execEncode f s
  | .checksum data => Sys2Proof.Machine.execChecksum data s
  | .verify data received => Sys2Proof.Machine.execVerify data received s
  | .enc16 n => Sys2Proof.Machine.execEnc16 n s
  | .dec16 b0 b1 => Sys2Proof.Machine.execDec16 b0 b1 s
  | .pack parts => Sys2Proof.Machine.execPack parts s
  | .readFrame => Sys2Proof.Machine.execReadFrame s
  | .writeFrame => Sys2Proof.Machine.execWriteFrame s
  | .reset => Sys2Proof.Machine.execReset s

end Sys2Proof.Machine
end

