-- ==== Sys2Proof/Machine/Environment.lean ====
section
/-!
DEFINITION. The moves of the environment agents (60_exceptions.md R150, R154; 70_reset_and_hazards.md R176).
-/

namespace Sys2Proof.Machine

/-- The producer writes a byte of `txbuf` (R19, R45). While a call is in progress it must not: what then stands
there is a free value (U19, log 11). Offset 65535 does not exist. -/
def producerWrites (offset : Half) (b : Byte) (s : State) : Out :=
  if Config.bufSize ≤ offset.toNat then .fault .txbufOffset
  else if s.tx.phase = .idle then .next (s.setTxbuf (s.txbuf.store offset.toNat b))
  else .next ((s.setTxbuf (s.txbuf.store offset.toNat (Config.disturbedTx s.fresh))).setFresh (s.fresh + 1))

/-- One move of an environment agent. -/
def envMove (m : EnvMove) (s : State) : Out :=
  match m with
  | .deliver x => .next (s.setItems (s.line.rxItems ++ [x]))
  | .answer a => .next (s.setAnswers (s.line.txAnswers ++ [a]))
  | .rdReq v => .next (s.setConsumer { s.consumer with rdReq := v })
  | .rfReady v => .next (s.setConsumer { s.consumer with rfReady := v })
  | .wrReq v => .next (s.setProducer { s.producer with wrReq := v })
  | .wrRecord r => .next (s.setProducer { s.producer with wrRecord := r })
  | .wdReady v => .next (s.setProducer { s.producer with wdReady := v })
  | .writeTxbuf offset b => producerWrites offset b s
  | .raiseRst => .next (s.setRst true)

end Sys2Proof.Machine
end

