-- ==== Sys2Proof/Machine/Step.lean ====
section
/-!
DEFINITION. One step of the block with its environment (00_scope.md R5): RESET if `rst` is 1 (R160), else the next
entry of the agenda. The block fetches no instructions (R13, R44); the agenda is the model's own (log 1).
-/

namespace Sys2Proof.Machine

/-- `rst` is sampled at the step boundary and wins over every other step (R147(f), R160); it is a pulse of one
step (log 12). With an empty agenda nobody moves and the machine waits unchanged (R110, R128). -/
def step (s : State) : Host.Outcome State Fault Refusal :=
  if s.rst then exec .reset (s.setRst false)
  else
    match s.agenda with
    | [] => .next s
    | .env m :: rest => envMove m (s.setAgenda rest)
    | .op w :: rest =>
      match decode w with
      | .ok i => exec i (s.setAgenda rest)
      | .error e => .refused (.notAnOperation e)

/-- The operation of a table word is the next thing on the agenda, and `rst` does not win over it. -/
def State.withFetchWord (s : State) (nbits w : Nat) : State :=
  (s.setRst false).setAgenda (.op (tableSelection nbits w) :: s.agenda)

end Sys2Proof.Machine
end

