-- ==== Sys2Proof/Machine/Ports.lean ====
section
/-!
DEFINITION. The output wires (10_state.md R20 to R25, R27): functions of the state; they hold nothing.
-/

namespace Sys2Proof.Machine

/-- `rx_ready` (R20): 1 exactly in HUNT, LEN_HI, LEN_LO, DATA and CSUM. -/
def rxReady (s : State) : Bool :=
  match s.rx.phase with
  | .idle => false
  | .done => false
  | .hunt => true
  | .lenHi => true
  | .lenLo => true
  | .data => true
  | .csum => true

/-- `rd_ack` (R22): 1 exactly in IDLE. -/
def rdAck (s : State) : Bool := s.rx.phase == .idle

/-- `rf_valid` (R22): 1 exactly in DONE. -/
def rfValid (s : State) : Bool := s.rx.phase == .done

/-- `rf_status` (R22). -/
def rfStatus (s : State) : BitVec 3 := s.rx.status.code

/-- `rf_cause` (R22): meaningful with TRANSPORT_ERROR. -/
def rfCause (s : State) : Option Config.TErr :=
  if s.rx.status = .transportError then some s.rx.cause else none

/-- The record of the receive frame port (R60). A field that does not belong to the kind has no specified value
and is `none` here (D28, log 23). -/
structure RfRecord where
  kind    : BitVec 2
  tag     : Byte
  id      : Option Byte
  addr    : Option (BitVec 64)
  options : Option Byte
  status  : Option Byte
  rssi    : Option Byte
  plen    : Half
  deriving DecidableEq, Repr

/-- The record a Frame is presented as (R60): the tag is driven for every kind. -/
def recordOf : Frame → RfRecord
  | .generic tag raw => ⟨0, tag, none, none, none, none, none, BitVec.ofNat 16 raw.length⟩
  | .txRequest id dest options payload =>
    ⟨1, Config.tagTxReq, some id, some (addrToPort dest), some options, none, none, BitVec.ofNat 16 payload.length⟩
  | .txStatus id status => ⟨2, Config.tagTxStat, some id, none, none, some status, none, 0⟩
  | .rxIndicate source rssi options payload =>
    ⟨3, Config.tagRxInd, none, some (addrToPort source), some options, none, some rssi,
      BitVec.ofNat 16 payload.length⟩

/-- The Frame presented at the receive frame port (R22, R105): in DONE with status OK. -/
def rfFrame (s : State) : Option Frame :=
  if s.rx.phase = .done then
    match readResult s with
    | some (.frame f) => some f
    | _ => none
  else none

/-- The record presented at the receive frame port. -/
def rfRecord (s : State) : Option RfRecord := (rfFrame s).map recordOf

/-- `poff` (R60): where the variable part starts in `rxbuf`. -/
def poff (kind : BitVec 2) : Nat := if kind = 0 then 1 else 11

/-- `rf_pdata` for `rf_paddr` (R60, R45): `rxbuf[poff + rf_paddr]` while the result is presented and the offset
is in the variable part; nothing may be read otherwise (D33, D34, log 23). -/
def rfPdata (s : State) (paddr : Half) : Option Byte :=
  match rfRecord s with
  | some r => if paddr.toNat < r.plen.toNat then some (rxByte s.rxbuf (poff r.kind + paddr.toNat)) else none
  | none => none

/-- `tx_valid` (R21, R123): 1 exactly in SEND. -/
def txValid (s : State) : Bool := s.tx.phase == .send

/-- `tx_data` (R123). -/
def txData (s : State) : Option Byte :=
  if s.tx.phase = .send then envelopeByte s.tx s.txbuf s.tx.idx.toNat else none

/-- `tx_last` (R21, R123): 1 exactly with the checksum byte. -/
def txLast (s : State) : Bool := s.tx.phase == .send && decide (s.tx.idx.toNat = s.tx.n.toNat + 3)

/-- `wr_ack` (R23): 1 exactly in IDLE. -/
def wrAck (s : State) : Bool := s.tx.phase == .idle

/-- `wd_valid` (R23): 1 exactly in DONE. -/
def wdValid (s : State) : Bool := s.tx.phase == .done

/-- `wd_count` (R23). -/
def wdCount (s : State) : U17 := s.tx.idx

/-- `wd_status` (R23). -/
def wdStatus (s : State) : BitVec 3 := s.tx.status.code

/-- `wd_cause` (R23). -/
def wdCause (s : State) : Config.TErr := s.tx.cause

/-- `ev_valid` with `ev_cause` during the step from `s` to `t` (R25, R146): the causes it emitted. -/
def evOut (s t : State) : List (BitVec 3) := (t.events.drop s.events.length).map Event.code

end Sys2Proof.Machine
end

