-- ==== Sys2Proof/Machine/Reference.lean ====
section
/-!
DEFINITION. READFRAME and WRITEFRAME as one function each (43_framestream_rx.md R112, 44_framestream_tx.md R130):
what the turns of the two sequencers are compared with. `step` does not call them.
-/

namespace Sys2Proof.Machine

/-- What comes of asking a sequence of items for something: it is there, an error token comes first, or the
sequence runs out and the call is blocked (R110). -/
inductive Taking (α : Type) where
  | got (v : α) (rest : List Item)
  | err (e : Config.TErr) (rest : List Item)
  | blocked
  deriving DecidableEq, Repr

/-- Go on with what was got. -/
def Taking.andThen {α β : Type} (x : Taking α) (f : α → List Item → Taking β) : Taking β :=
  match x with
  | .got v rest => f v rest
  | .err e rest => .err e rest
  | .blocked => .blocked

/-- `next(s)` where a byte is wanted. -/
def nextByte : List Item → Taking Byte
  | [] => .blocked
  | .err e :: rest => .err e rest
  | .byte b :: rest => .got b rest

/-- The next `n` bytes of `s`. -/
def nextBytes : Nat → List Item → Taking (List Byte)
  | 0, s => .got [] s
  | n + 1, s => (nextByte s).andThen fun b s1 => (nextBytes n s1).andThen fun bs s2 => .got (b :: bs) s2

/-- Step 1 of R112: skip bytes until one is the delimiter. -/
def hunt : List Item → Taking Unit
  | [] => .blocked
  | .err e :: rest => .err e rest
  | .byte b :: rest => if b = Config.delim then .got () rest else hunt rest

/-- Steps 1 to 4 of R112: the frame data and the received checksum of the next candidate frame. -/
def nextCandidate (s : List Item) : Taking (List Byte × Byte) :=
  (hunt s).andThen fun _ s1 =>
  (nextByte s1).andThen fun h s2 =>
  (nextByte s2).andThen fun l s3 =>
  (nextBytes (dec16 h l).toNat s3).andThen fun d s4 =>
  (nextByte s4).andThen fun c s5 => .got (d, c) s5

/-- What a call of READFRAME gives: its result, the discard events, the items left. -/
structure ReadReturn where
  result : ReadResult
  events : List Event
  rest   : List Item
  deriving DecidableEq, Repr

/-- The loop of R112, at most `fuel` candidate frames. -/
def readLoop : Nat → List Event → List Item → Option ReadReturn
  | 0, _, _ => none
  | fuel + 1, events, s =>
    match nextCandidate s with
    | .blocked => none
    | .err e rest => some ⟨.transportError e, events, rest⟩
    | .got (d, c) rest =>
      if verify d c then
        match decodeFrame d with
        | .ok f => some ⟨.frame f, events, rest⟩
        | .malformed => readLoop fuel (events ++ [.malformedFrameData]) rest
      else readLoop fuel (events ++ [.checksumMismatch]) rest

/-- READFRAME(s) of R112; `none` when the call never returns. A candidate frame takes at least four items, so the
fuel is not used up. -/
def readFrameRef (s : List Item) : Option ReadReturn := readLoop (s.length + 1) [] s

/-- What a call of WRITEFRAME gives: count, status, the cause of an error, the bytes appended to the transmit
stream. -/
structure WriteReturn where
  count  : Nat
  status : TxStatus
  cause  : Option Config.TErr
  sent   : List Byte
  deriving DecidableEq, Repr

/-- WRITEFRAME(f) of R130 for a transport that answers the one write with `(w, e)`. -/
def writeFrameRef (f : Frame) (w : Nat) (e : Option Config.TErr) : WriteReturn :=
  if 65535 < (encodeFrame f).length then ⟨0, .valueOutOfRange, none, []⟩
  else
    match e with
    | some c => ⟨w, .transportError, some c, (envelope (encodeFrame f)).take w⟩
    | none => ⟨w, .ok, none, (envelope (encodeFrame f)).take w⟩

/-- The transport takes the offered byte and goes on. -/
def acceptAnswer : TxAnswer := ⟨true, false, false, ⟨0⟩⟩

/-- The answers of a transport whose answer to a write of `total` bytes is `(w, e)`: `w` bytes are accepted one
by one; an error with the last byte of all comes with that byte. -/
def answersFor (total w : Nat) (e : Option Config.TErr) : List TxAnswer :=
  match e with
  | none => List.replicate w acceptAnswer ++ (if w < total then [⟨false, true, false, ⟨0⟩⟩] else [])
  | some c =>
    if w < total then List.replicate w acceptAnswer ++ [⟨false, true, true, c⟩]
    else List.replicate (w - 1) acceptAnswer ++ [⟨true, true, true, c⟩]

/-- `k` turns of one operation, stopping at the first stop. -/
def turns (i : Instr) : Nat → State → Out
  | 0, s => .next s
  | k + 1, s =>
    match exec i s with
    | .next t => turns i k t
    | .fault r => .fault r
    | .refused r => .refused r

end Sys2Proof.Machine
end

