-- ==== Sys2Proof/Safety.lean ====
section
/-!
DEFINITION. The invariants of the registers (10_state.md R15, R17) and of the buffers, in the terms the
statements use; when the block is quiescent (70_reset_and_hazards.md R175).
-/

namespace Sys2Proof.Machine

/-- Every byte of the candidate frame collected so far has been written by it (R27, R31). -/
def collected (s : State) : Prop := ∀ i, i < s.rx.cnt.toNat → (s.rxbuf.byteAt i).isSome = true

/-- The running sum is the sum of what has been collected (R14, R15). -/
def sumRight (s : State) : Prop := s.rx.sum = sum8 (rxBytes s.rxbuf s.rx.cnt.toNat)

/-- R15. In IDLE, HUNT, LEN_HI and LEN_LO the data registers are leftovers. -/
def RxInv (s : State) : Prop :=
  match s.rx.phase with
  | .idle => True
  | .hunt => True
  | .lenHi => True
  | .lenLo => True
  | .data => 1 ≤ s.rx.len.toNat ∧ s.rx.cnt.toNat < s.rx.len.toNat ∧ sumRight s ∧ collected s
  | .csum => s.rx.cnt = s.rx.len ∧ sumRight s ∧ collected s
  | .done =>
    s.rx.status = .ok →
      s.rx.cnt = s.rx.len ∧ 1 ≤ s.rx.len.toNat ∧ collected s ∧ ∃ f, decodeFrame (candidate s) = .ok f

/-- R17, and `tx.n` is the encoded length of the latched Frame (R121). -/
def TxInv (s : State) : Prop :=
  match s.tx.phase with
  | .idle => True
  | .send =>
    s.tx.n = encodedLen s.tx.frame ∧ 1 ≤ s.tx.n.toNat ∧ s.tx.n.toNat ≤ 65535 ∧
      s.tx.idx.toNat < s.tx.n.toNat + 4
  | .done =>
    s.tx.n = encodedLen s.tx.frame ∧ (s.tx.status = .valueOutOfRange ↔ 65535 < s.tx.n.toNat) ∧
      (s.tx.status = .valueOutOfRange → s.tx.idx = 0) ∧ s.tx.idx.toNat ≤ s.tx.n.toNat + 4

/-- In SEND the running sum is the sum of the frame-data bytes accepted so far (R16). Not part of `BlockInv`: a
producer that writes `txbuf` during a call breaks it (R168). -/
def TxSum (s : State) : Prop :=
  s.tx.phase = .send → s.tx.sum = sum8 ((encodeFrame (frameOf s.tx.frame s.txbuf)).take (s.tx.idx.toNat - 3))

/-- Both buffers have their form. -/
def BuffersWf (s : State) : Prop := s.rxbuf.wf = true ∧ s.txbuf.wf = true

/-- The invariant of the block. -/
def BlockInv (s : State) : Prop := RxInv s ∧ TxInv s ∧ BuffersWf s

/-- R175: both phases IDLE. -/
def quiescent (s : State) : Prop := s.rx.phase = .idle ∧ s.tx.phase = .idle

/-- The arrows of `rx.phase` that READFRAME makes: the rows of R111 but RESET's. -/
def rxArrows : List (RxPhase × RxPhase) :=
  [(.idle, .hunt), (.hunt, .hunt), (.hunt, .lenHi), (.lenHi, .lenLo), (.lenLo, .csum), (.lenLo, .data),
   (.data, .data), (.data, .csum), (.csum, .done), (.csum, .hunt),
   (.hunt, .done), (.lenHi, .done), (.lenLo, .done), (.data, .done), (.done, .idle)]

/-- The arrows of `tx.phase` that WRITEFRAME makes: the rows of R129 but RESET's. -/
def txArrows : List (TxPhase × TxPhase) :=
  [(.idle, .send), (.idle, .done), (.send, .send), (.send, .done), (.done, .idle)]

end Sys2Proof.Machine
end

