-- ==== Sys2Proof/Certificates/Slice0/Obligations.lean ====
section
/-!
DEFINITION. The statements for the provers, each with the rule of spec/ it formalises. Where a rule, or a part of
one, is the spec's own decision (`D<n>`) or inference, the docstring says so. How the model holds what the rules speak
of is its own: a function's result stands at a result port (log 5), one exec of READFRAME or WRITEFRAME is one turn of its
sequencer (log 2), the transport's items and answers and the results taken are lists (log 9, 14, 22).
-/

open Sys2Proof Sys2Proof.Machine

/-! ### ByteCodec (40_bytecodec.md) -/

/-- R70: the sum is taken byte after byte modulo 256 from 0 and subtracted from 0xFF; the order of the bytes does
not matter; the result is returned for every data and nothing else changes. -/
def Obligations.ChecksumSubtractsWrappedSumFromFF : Prop :=
  ∀ (d : List Byte) (s : State),
    exec (.checksum d) s = .next (s.setFnOut (some (.byte
      (BitVec.ofNat 8 ((0xFF - d.foldl (fun a b => (a + b.toNat) % 256) 0) % 256))))) ∧
    ∀ d', d.Perm d' → exec (.checksum d') s = exec (.checksum d) s

/-- R71: VERIFY compares CHECKSUM with the received byte; the checksum verifies; for each data exactly one byte
verifies; the form with the sum, which R71 derives, agrees. -/
def Obligations.VerifyAcceptsExactlyTheChecksum : Prop :=
  ∀ (d : List Byte) (c : Byte) (s : State),
    exec (.verify d c) s = .next (s.setFnOut (some (.bool (decide (checksum d = c))))) ∧
    exec (.verify d c) s = .next (s.setFnOut (some (.bool
      (decide (((d.map BitVec.toNat).sum + c.toNat) % 256 = 0xFF))))) ∧
    exec (.verify d (checksum d)) s = .next (s.setFnOut (some (.bool true))) ∧
    ∃! c', exec (.verify d c') s = .next (s.setFnOut (some (.bool true)))

/-- R72: the high byte `n[15:8]` first, then `n[7:0]`. Above 65535 the spec's decision D18 applies: the encoding of
`n mod 65536`. -/
def Obligations.Enc16PutsMostSignificantByteFirst : Prop :=
  ∀ (n : Nat) (s : State),
    exec (.enc16 n) s = .next (s.setFnOut (some (.bytes
      [(BitVec.ofNat 16 n).extractLsb' 8 8, (BitVec.ofNat 16 n).extractLsb' 0 8]))) ∧
    exec (.enc16 n) s = exec (.enc16 (n % 65536)) s

/-- R73: `{ b[0], b[1] }` as an unsigned 16-bit integer, `256 * b[0] + b[1]`; DEC16 undoes ENC16 on 0..65535, and
ENC16 undoes DEC16. -/
def Obligations.Dec16ReadsBigEndianAndInvertsEnc16 : Prop :=
  (∀ (b0 b1 : Byte) (s : State),
    exec (.dec16 b0 b1) s = .next (s.setFnOut (some (.int (b0 ++ b1)))) ∧
    exec (.dec16 b0 b1) s = .next (s.setFnOut (some (.int (BitVec.ofNat 16 (256 * b0.toNat + b1.toNat))))) ∧
    (dec16 b0 b1).toNat = 256 * b0.toNat + b1.toNat ∧
    enc16 (dec16 b0 b1).toNat = [b0, b1]) ∧
  ∀ n, n ≤ 65535 → ∃ b0 b1, enc16 n = [b0, b1] ∧ (dec16 b0 b1).toNat = n

/-- R74: the parts in argument order: no part gives nothing, a byte part its byte, a sequence part its bytes, and
parts after parts their bytes after theirs; the length is the number of byte parts plus the lengths of the
sequence parts. -/
def Obligations.PackConcatenatesPartsInOrder : Prop :=
  (∀ s : State, exec (.pack []) s = .next (s.setFnOut (some (.bytes [])))) ∧
  (∀ (b : Byte) (ps : List Sys2Proof.Part) (s : State),
    exec (.pack (.byte b :: ps)) s = .next (s.setFnOut (some (.bytes (b :: pack ps))))) ∧
  (∀ (bs : List Byte) (ps : List Sys2Proof.Part) (s : State),
    exec (.pack (.bytes bs :: ps)) s = .next (s.setFnOut (some (.bytes (bs ++ pack ps))))) ∧
  (∀ ps qs : List Sys2Proof.Part, pack (ps ++ qs) = pack ps ++ pack qs) ∧
  ∀ ps : List Sys2Proof.Part,
    (pack ps).length = (ps.map fun p => match p with | .byte _ => 1 | .bytes bs => bs.length).sum

/-- R76 and the inference in R70 (both derived by the spec): the checksum is the complement of the sum reduced once at
the end; one corrupted data byte or a corrupted checksum byte always fails VERIFY; reordering is never detected; several
corrupted bytes can cancel. -/
def Obligations.SingleCorruptionAlwaysFailsVerify : Prop :=
  (∀ d : List Byte, checksum d = ~~~ BitVec.ofNat 8 (d.map BitVec.toNat).sum) ∧
  (∀ (d : List Byte) (c : Byte), verify d c = true →
    (∀ (i : Nat) (b : Byte) (h : i < d.length), b ≠ d[i] → verify (d.set i b) c = false) ∧
    (∀ c', c' ≠ c → verify d c' = false) ∧
    ∀ d', d.Perm d' → verify d' c = true) ∧
  ∃ (d d' : List Byte) (c : Byte), d.length = d'.length ∧ ¬ d.Perm d' ∧ verify d c = true ∧ verify d' c = true

/-! ### DECODE and its arms (41_framemodel_decode.md) -/

/-- R80, R81, R57: the empty sequence is MalformedFrameData; else the tag alone selects the arm, 0x00, 0x89, 0x80,
anything else Generic, and DECODE does what the arm does. -/
def Obligations.DecodeSelectsArmByTag : Prop :=
  ∀ s : State,
    exec (.decode []) s = .next (s.setFnOut (some (.decoded .malformed))) ∧
    (∀ rest, exec (.decode (0x00 :: rest)) s = exec (.decTxReq rest) s) ∧
    (∀ rest, exec (.decode (0x89 :: rest)) s = exec (.decTxStat rest) s) ∧
    (∀ rest, exec (.decode (0x80 :: rest)) s = exec (.decRxInd rest) s) ∧
    (∀ tag rest, tag ≠ 0x00 → tag ≠ 0x89 → tag ≠ 0x80 →
      exec (.decode (tag :: rest)) s = exec (.decGeneric tag rest) s) ∧
    ∀ d, ∃ r, exec (.decode d) s = .next (s.setFnOut (some (.decoded r)))

/-- R82: fewer than 11 bytes with the tag are malformed; else id, destination, options at indices 1, 2..9, 10, the
payload from 11 on, whatever their values. -/
def Obligations.DecTxReqReadsFieldsByIndex : Prop :=
  (∀ (rest : List Byte) (s : State), (0x00 :: rest).length < 11 →
    exec (.decTxReq rest) s = .next (s.setFnOut (some (.decoded .malformed)))) ∧
  (∀ (id d0 d1 d2 d3 d4 d5 d6 d7 options : Byte) (payload : List Byte) (s : State),
    exec (.decTxReq (id :: d0 :: d1 :: d2 :: d3 :: d4 :: d5 :: d6 :: d7 :: options :: payload)) s =
      .next (s.setFnOut (some (.decoded (.ok
        (.txRequest id ⟨d0, d1, d2, d3, d4, d5, d6, d7⟩ options payload)))))) ∧
  ∀ (rest : List Byte) (s : State), 11 ≤ (0x00 :: rest).length →
    exec (.decTxReq rest) s = .next (s.setFnOut (some (.decoded (.ok (.txRequest
      ((0x00 :: rest).getD 1 0) (addrOf (0x00 :: rest) 2) ((0x00 :: rest).getD 10 0) ((0x00 :: rest).drop 11))))))

/-- R83: fewer than 3 bytes with the tag are malformed; else id and status at indices 1 and 2. That what follows is
ignored is the spec's decision D16 (log 17). -/
def Obligations.DecTxStatReadsTwoBytesIgnoresRest : Prop :=
  (∀ (rest : List Byte) (s : State), (0x89 :: rest).length < 3 →
    exec (.decTxStat rest) s = .next (s.setFnOut (some (.decoded .malformed)))) ∧
  ∀ (id status : Byte) (ignored : List Byte) (s : State),
    exec (.decTxStat (id :: status :: ignored)) s =
      .next (s.setFnOut (some (.decoded (.ok (.txStatus id status)))))

/-- R84: fewer than 11 bytes with the tag are malformed; else source, rssi, options at indices 1..8, 9, 10, the
payload from 11 on. -/
def Obligations.DecRxIndReadsFieldsByIndex : Prop :=
  (∀ (rest : List Byte) (s : State), (0x80 :: rest).length < 11 →
    exec (.decRxInd rest) s = .next (s.setFnOut (some (.decoded .malformed)))) ∧
  ∀ (a0 a1 a2 a3 a4 a5 a6 a7 rssi options : Byte) (payload : List Byte) (s : State),
    exec (.decRxInd (a0 :: a1 :: a2 :: a3 :: a4 :: a5 :: a6 :: a7 :: rssi :: options :: payload)) s =
      .next (s.setFnOut (some (.decoded (.ok
        (.rxIndicate ⟨a0, a1, a2, a3, a4, a5, a6, a7⟩ rssi options payload)))))

/-- R85: the arm cannot fail, keeps the tag and every byte after it; DECODE returns a Generic only for a tag that is
none of 0x00, 0x89, 0x80, and then for every such tag. -/
def Obligations.DecGenericKeepsEveryByte : Prop :=
  (∀ (tag : Byte) (raw : List Byte) (s : State),
    exec (.decGeneric tag raw) s = .next (s.setFnOut (some (.decoded (.ok (.generic tag raw)))))) ∧
  ∀ (d : List Byte) (tag : Byte) (raw : List Byte),
    decodeFrame d = .ok (.generic tag raw) ↔ d = tag :: raw ∧ tag ≠ 0x00 ∧ tag ≠ 0x89 ∧ tag ≠ 0x80

/-- R86(a), R86(b) (derived by the spec): when DECODE succeeds, and that the Frame it returns encodes to no more
bytes than it was decoded from, to fewer only for a TXSTAT longer than 3. -/
def Obligations.DecodeSucceedsExactlyOnLongEnoughData : Prop :=
  (∀ d : List Byte, (∃ f, decodeFrame d = .ok f) ↔
    1 ≤ d.length ∧ (d.head? = some 0x00 → 11 ≤ d.length) ∧ (d.head? = some 0x89 → 3 ≤ d.length) ∧
      (d.head? = some 0x80 → 11 ≤ d.length)) ∧
  ∀ (d : List Byte) (f : Frame), decodeFrame d = .ok f →
    (encodeFrame f).length ≤ d.length ∧
    ((encodeFrame f).length ≠ d.length → d.head? = some 0x89 ∧ 3 < d.length)

/-! ### ENCODE and its arms (42_framemodel_encode.md) -/

/-- R90, R91, R93, R94: the bytes of each variant in wire order, the type tag first, no error case. -/
def Obligations.EncodeWritesFieldsInWireOrder : Prop :=
  ∀ s : State,
    (∀ (id d0 d1 d2 d3 d4 d5 d6 d7 options : Byte) (payload : List Byte),
      exec (.encode (.txRequest id ⟨d0, d1, d2, d3, d4, d5, d6, d7⟩ options payload)) s =
        .next (s.setFnOut (some (.bytes
          ([0x00, id, d0, d1, d2, d3, d4, d5, d6, d7, options] ++ payload))))) ∧
    (∀ (id status : Byte),
      exec (.encode (.txStatus id status)) s = .next (s.setFnOut (some (.bytes [0x89, id, status])))) ∧
    (∀ (a0 a1 a2 a3 a4 a5 a6 a7 rssi options : Byte) (payload : List Byte),
      exec (.encode (.rxIndicate ⟨a0, a1, a2, a3, a4, a5, a6, a7⟩ rssi options payload)) s =
        .next (s.setFnOut (some (.bytes
          ([0x80, a0, a1, a2, a3, a4, a5, a6, a7, rssi, options] ++ payload))))) ∧
    ∀ f, exec (.encode f) s = .next (s.setFnOut (some (.bytes (encodeFrame f)))) ∧ 1 ≤ (encodeFrame f).length

/-- The ENC arms as the port record selects them (R60, R32, the spec's decision D7): fixed fields of the record, the
address first wire byte from `addr[63:56]` (R34), the variable part from `txbuf[0..plen-1]`, ENC.TXSTAT without
it, in the wire orders of R91, R93, R94 and R92. An offset of `txbuf` that nothing has written reads as a free value, the
model's choice (log 10); so is that an arm used by itself reads `txbuf` in every `tx.phase` (log 25: R19 names only the
TX sequencer in SEND). A Generic is encoded as it stands, also with a recognised tag (R92, the spec's decision D29). -/
def Obligations.EncArmsReadRecordAndTxbuf : Prop :=
  ∀ (s : State) (plen : Half),
    (∀ tag, exec (.encGeneric tag plen) s = .next (s.setFnOut (some (.bytes
      (tag :: (List.range plen.toNat).map fun k => txByte s.txbuf k))))) ∧
    (∀ id addr options, exec (.encTxReq id addr options plen) s = .next (s.setFnOut (some (.bytes
      ([0x00, id] ++ ((List.range 8).map fun k => (addr >>> (56 - 8 * k)).setWidth 8) ++ [options] ++
        (List.range plen.toNat).map fun k => txByte s.txbuf k))))) ∧
    (∀ id status, exec (.encTxStat id status) s = .next (s.setFnOut (some (.bytes [0x89, id, status])))) ∧
    (∀ addr rssi options, exec (.encRxInd addr rssi options plen) s = .next (s.setFnOut (some (.bytes
      ([(0x80 : Byte)] ++ ((List.range 8).map fun k => (addr >>> (56 - 8 * k)).setWidth 8) ++ [rssi, options] ++
        (List.range plen.toNat).map fun k => txByte s.txbuf k))))) ∧
    (∀ tag raw, exec (.encode (.generic tag raw)) s = .next (s.setFnOut (some (.bytes (tag :: raw))))) ∧
    ∀ k b, s.txbuf.byteAt k = some b → txByte s.txbuf k = b

/-- R95 (derived by the spec) with R121: the length of a port record's Frame from `kind` and `plen` alone, and that it
is what `tx.n` will hold. -/
def Obligations.EncodedLengthFollowsKindAndPlen : Prop :=
  ∀ (r : PortRecord) (txbuf : Memory),
    (encodedLen r).toNat = (encodeFrame (frameOf r txbuf)).length ∧
    (r.kind = 0 → (encodedLen r).toNat = 1 + r.plen.toNat) ∧
    (r.kind = 1 ∨ r.kind = 3 → (encodedLen r).toNat = 11 + r.plen.toNat) ∧
    (r.kind = 2 → (encodedLen r).toNat = 3)

/-- R96 (derived by the spec): DECODE undoes ENCODE for exactly the Frames that are not a Generic with a recognised
tag; ENCODE undoes DECODE except on a TXSTAT-tagged sequence longer than 3 bytes. -/
def Obligations.DecodeInvertsEncodeExactly : Prop :=
  (∀ f : Frame, decodeFrame (encodeFrame f) = .ok f ↔
    ∀ tag raw, f = .generic tag raw → tag ≠ 0x00 ∧ tag ≠ 0x89 ∧ tag ≠ 0x80) ∧
  ∀ (d : List Byte) (f : Frame), decodeFrame d = .ok f →
    (encodeFrame f = d ↔ ¬ (d.head? = some 0x89 ∧ 3 < d.length))

/-! ### Selections (30_encoding.md) -/

/-- R50, R51, R57, R60: reading the selection of a well-formed operation gives it back, every operand kept. Selections as
a type are the model's choice (log 4). -/
def Obligations.DecodeOfEncodeIsTheOperation : Prop :=
  ∀ i : Instr, wellFormed i = true → decode (encode i) = .ok i

/-- Every selection that is read is read as a well-formed operation, and but for a port record (whose fields outside
its kind are ignored, R60) it is that operation's only selection of its kind. Selections as a
type are the model's choice (log 4). -/
def Obligations.SelectionHasOneMeaning : Prop :=
  ∀ (w : Selection) (i : Instr), decode w = .ok i →
    wellFormed i = true ∧ ((∀ r, w ≠ .record r) → encode i = w) ∧ decode (encode i) = .ok i

/-- Four selections written out from the spec's tables (R51 to R55, R57, R60; 95_test_vectors.md V-F3, V-E2, V-E8, V-E5).
The last two clauses are words of spec/opcode_table.json as `decodeTableWord` reads them: that a first byte 0x7E is read as
an envelope, and that operand bytes the table gives no bits are zeros, is the model's choice (log 4). -/
def Obligations.TableWordsDecode : Prop :=
  decode (.envelope [0x7E, 0x00, 0x03, 0x89, 0x01, 0x00, 0x75]) = .ok (.frame [0x89, 0x01, 0x00] 0x75) ∧
  decode (.frameData [0x00, 0x07, 1, 2, 3, 4, 5, 6, 7, 8, 0x01]) =
    .ok (.decTxReq [0x07, 1, 2, 3, 4, 5, 6, 7, 8, 0x01]) ∧
  decode (.frameData [0x8A, 0x00]) = .ok (.decGeneric 0x8A [0x00]) ∧
  decode (.record ⟨0b11, 0x55, 0x66, 0x0013A200400A0127, 0x00, 0x77, 0x28, 2⟩) =
    .ok (.encRxInd 0x0013A200400A0127 0x28 0x00 2) ∧
  decodeTableWord 8 0x7E = some (.frame [] 0x00) ∧
  decodeTableWord 8 0x89 = some (.decTxStat [0x00, 0x00])

/-! ### A step -/

/-- When `rst` is 0 and the next entry of the agenda is a selection that reads as an operation, the step is that
operation's meaning at the state with the entry taken off. The agenda is the model's choice (log 1). -/
def Obligations.StepRunsTheSelectedOperation : Prop :=
  ∀ (s : State) (w : Selection) (rest : List Turn) (i : Instr),
    s.rst = false → s.agenda = .op w :: rest → decode w = .ok i → step s = exec i (s.setAgenda rest)

/-- R147(f), R160 (the spec's decision D21): `rst` = 1 wins over whatever stands on the agenda, which waits. That the
wire is a pulse of one step is the model's choice (log 12). -/
def Obligations.ResetInputWinsOverEveryOtherStep : Prop :=
  ∀ s : State, s.rst = true →
    step s = exec .reset (s.setRst false) ∧
    ∃ t, step s = .next t ∧ t.rst = false ∧ t.agenda = s.agenda ∧ t.rx.phase = .idle ∧ t.tx.phase = .idle

/-- R150, R154, R160, R176, R20 to R23: each move of an environment agent changes its own wire or queue. A producer that
writes `txbuf` in IDLE stores the byte (R45). The model's choices: the agenda (log 1); a free value for a byte written
during a call (log 11, after U19); `rst` as a wire that a move raises and a step clears (log 12); the other wires as levels
that only their agent's move changes (log 13); the transport's answers as a queue (log 14). -/
def Obligations.EnvironmentMovesLandBetweenSteps : Prop :=
  ∀ (s : State) (m : EnvMove) (rest : List Turn), s.rst = false → s.agenda = .env m :: rest →
    (∀ x, m = .deliver x → step s =
      .next ((s.setAgenda rest).setLine { s.line with rxItems := s.line.rxItems ++ [x] })) ∧
    (∀ a, m = .answer a → step s =
      .next ((s.setAgenda rest).setLine { s.line with txAnswers := s.line.txAnswers ++ [a] })) ∧
    (∀ v, m = .rdReq v → step s = .next ((s.setAgenda rest).setConsumer { s.consumer with rdReq := v })) ∧
    (∀ v, m = .rfReady v → step s = .next ((s.setAgenda rest).setConsumer { s.consumer with rfReady := v })) ∧
    (∀ v, m = .wrReq v → step s = .next ((s.setAgenda rest).setProducer { s.producer with wrReq := v })) ∧
    (∀ r, m = .wrRecord r → step s = .next ((s.setAgenda rest).setProducer { s.producer with wrRecord := r })) ∧
    (∀ v, m = .wdReady v → step s = .next ((s.setAgenda rest).setProducer { s.producer with wdReady := v })) ∧
    (m = .raiseRst → step s = .next ((s.setAgenda rest).setRst true)) ∧
    ∀ a b, m = .writeTxbuf a b → a.toNat < 65535 →
      ∃ t v, step s = .next t ∧ t.txbuf.byteAt a.toNat = some v ∧ (s.tx.phase = .idle → v = b) ∧
        (∀ x, x ≠ a.toNat → t.txbuf.byteAt x = s.txbuf.byteAt x) ∧
        (t.setTxbuf s.txbuf).setFresh s.fresh = s.setAgenda rest

/-! ### FRAME, the functions: frames -/

/-- R51, R20, R40: the bytes of the envelope join the items the transport holds, delimiter first, the length
big-endian, then the data, then the checksum byte. That FRAME is the arrival of an envelope is the model's choice
(log 3). The receiver finds the same data and checksum in them (R59). -/
def Obligations.FrameBytesArriveInEnvelopeOrder : Prop :=
  ∀ (d : List Byte) (c : Byte) (s : State), d.length ≤ 65535 →
    exec (.frame d c) s = .next (s.setLine { s.line with rxItems := s.line.rxItems ++
      ([0x7E, BitVec.ofNat 8 (d.length / 256), BitVec.ofNat 8 (d.length % 256)] ++ d ++ [c]).map .byte }) ∧
    ∀ rest, nextCandidate ((([0x7E, BitVec.ofNat 8 (d.length / 256), BitVec.ofNat 8 (d.length % 256)] ++ d ++
      [c]).map .byte) ++ rest) = .got (d, c) rest

/-- 40_bytecodec.md, 41, 42: the functions, the DEC arms and the ENC arms read their operands and write no state: every
register, every flag-like code, every byte of memory, every wire is as before; only the result port, the model's own
(log 5), is written. -/
def Obligations.FunctionsWriteNoState : Prop :=
  ∀ (i : Instr) (s t : State), exec i s = .next t →
    (match i with
      | .frame _ _ => False | .readFrame => False | .writeFrame => False | .reset => False
      | .decTxReq _ => True | .decTxStat _ => True | .decRxInd _ => True | .decGeneric _ _ => True
      | .encGeneric _ _ => True | .encTxReq _ _ _ _ => True | .encTxStat _ _ => True | .encRxInd _ _ _ _ => True
      | .decode _ => True | .encode _ => True | .checksum _ => True | .verify _ _ => True
      | .enc16 _ => True | .dec16 _ _ => True | .pack _ => True) →
    t.setFnOut s.fnOut = s ∧ t.fnOut.isSome = true ∧
      (∀ a, t.rxbuf.byteAt a = s.rxbuf.byteAt a) ∧ ∀ a, t.txbuf.byteAt a = s.txbuf.byteAt a

/-! ### READFRAME (43_framestream_rx.md) -/

/-- R101: the delimiter ends the hunt; any other byte is dropped and stored, counted and reported nowhere. -/
def Obligations.HuntDropsBytesUntilTheDelimiter : Prop :=
  ∀ (s : State) (b : Byte) (rest : List Item), s.rx.phase = .hunt → s.line.rxItems = .byte b :: rest →
    (b = 0x7E → exec .readFrame s =
      .next ((s.setLine { s.line with rxItems := rest }).setRx { s.rx with phase := .lenHi })) ∧
    (b ≠ 0x7E → exec .readFrame s = .next (s.setLine { s.line with rxItems := rest }))

/-- R102: the first length byte is kept, whatever its value. -/
def Obligations.FirstLengthByteIsKept : Prop :=
  ∀ (s : State) (b : Byte) (rest : List Item), s.rx.phase = .lenHi → s.line.rxItems = .byte b :: rest →
    exec .readFrame s =
      .next ((s.setLine { s.line with rxItems := rest }).setRx { s.rx with lenHi := b, phase := .lenLo })

/-- R103: the length is assembled big-endian, count and sum start at 0, every value is accepted. That a length of 0
skips phase DATA is the spec's decision D30. -/
def Obligations.SecondLengthByteStartsTheAssembly : Prop :=
  ∀ (s : State) (b : Byte) (rest : List Item), s.rx.phase = .lenLo → s.line.rxItems = .byte b :: rest →
    ∃ t, exec .readFrame s = .next t ∧ t.rx.len.toNat = 256 * s.rx.lenHi.toNat + b.toNat ∧
      t.rx.cnt = 0 ∧ t.rx.sum = 0 ∧
      t.rx.phase = (if 256 * s.rx.lenHi.toNat + b.toNat = 0 then .csum else .data) ∧
      t.rx.lenHi = s.rx.lenHi ∧ t.rx.status = s.rx.status ∧ t.rx.cause = s.rx.cause ∧
      t.line = { s.line with rxItems := rest } ∧ (t.setRx s.rx).setLine s.line = s

/-- R104: the byte, whatever its value, goes to `rxbuf[rx.cnt]`; the sum and the count go on; the phase is CSUM
exactly when all bytes are in. No other byte of memory changes. -/
def Obligations.DataByteIsStoredAndSummed : Prop :=
  ∀ (s : State) (b : Byte) (rest : List Item), s.rx.phase = .data → s.line.rxItems = .byte b :: rest →
    s.rx.cnt.toNat < s.rx.len.toNat →
    ∃ t, exec .readFrame s = .next t ∧
      t.rxbuf.byteAt s.rx.cnt.toNat = some b ∧
      (∀ a, a ≠ s.rx.cnt.toNat → t.rxbuf.byteAt a = s.rxbuf.byteAt a) ∧
      t.rx.sum.toNat = (s.rx.sum.toNat + b.toNat) % 256 ∧
      t.rx.cnt.toNat = s.rx.cnt.toNat + 1 ∧
      t.rx.phase = (if s.rx.cnt.toNat + 1 = s.rx.len.toNat then .csum else .data) ∧
      t.rx.len = s.rx.len ∧ t.rx.lenHi = s.rx.lenHi ∧ t.rx.status = s.rx.status ∧ t.rx.cause = s.rx.cause ∧
      t.line = { s.line with rxItems := rest } ∧ ((t.setRx s.rx).setLine s.line).setRxbuf s.rxbuf = s

/-- R105: a candidate frame whose checksum verifies and which decodes ends the call with OK, no event, and its Frame
is presented. `RxInv` is R15: the step judges by the running sum (the spec's decision D31). -/
def Obligations.ValidFrameIsPresented : Prop :=
  ∀ (s : State) (c : Byte) (rest : List Item) (f : Frame), s.rx.phase = .csum → RxInv s →
    s.line.rxItems = .byte c :: rest → verify (candidate s) c = true → decodeFrame (candidate s) = .ok f →
    ∃ t, exec .readFrame s = .next t ∧
      t = (s.setLine { s.line with rxItems := rest }).setRx { s.rx with status := .ok, phase := .done } ∧
      rfFrame t = some f ∧ t.events = s.events

/-- R106, R107, R147(a) (the events and the discard of a malformed frame are the spec's decisions D14, D15): a checksum
that does not verify discards the candidate frame, also one too short to decode; so does a checksum-valid frame that
does not decode; each with one event, and the hunt resumes after it. -/
def Obligations.BadCandidateIsDiscardedWhole : Prop :=
  ∀ (s : State) (c : Byte) (rest : List Item), s.rx.phase = .csum → RxInv s →
    s.line.rxItems = .byte c :: rest →
    (verify (candidate s) c = false → exec .readFrame s =
      .next (((s.setLine { s.line with rxItems := rest }).setEvents (s.events ++ [.checksumMismatch])).setRx
        { s.rx with phase := .hunt })) ∧
    (verify (candidate s) c = true → decodeFrame (candidate s) = .malformed → exec .readFrame s =
      .next (((s.setLine { s.line with rxItems := rest }).setEvents (s.events ++ [.malformedFrameData])).setRx
        { s.rx with phase := .hunt }))

/-- R108, R148 (decision D19): an error token in any of the five phases ends the call; the token is consumed, nothing
else is written, no event is emitted. -/
def Obligations.ErrorTokenEndsTheReadCall : Prop :=
  ∀ (s : State) (e : Config.TErr) (rest : List Item), s.rx.phase ≠ .idle → s.rx.phase ≠ .done →
    s.line.rxItems = .err e :: rest →
    exec .readFrame s = .next ((s.setLine { s.line with rxItems := rest }).setRx
      { s.rx with status := .transportError, cause := e, phase := .done })

/-- R109 (decisions D10, D34): the consumer takes the result presented, once, and the sequencer is IDLE. The list of
results taken is the model's record of them (log 22). -/
def Obligations.ReadResultIsTakenOnce : Prop :=
  ∀ s : State, s.rx.phase = .done → s.consumer.rfReady = true → RxInv s →
    ∃ t r, exec .readFrame s = .next t ∧ t.rx = { s.rx with phase := .idle } ∧
      t.consumer = { s.consumer with taken := s.consumer.taken ++ [r] } ∧
      (s.rx.status = .transportError → r = .transportError s.rx.cause) ∧
      (s.rx.status = .ok → ∃ f, decodeFrame (candidate s) = .ok f ∧ r = .frame f) ∧
      (t.setRx s.rx).setConsumer s.consumer = s

/-- R100 (decisions D10, D12), R110 (decision D22), R20: a request is accepted in IDLE and nothing else is written; with
no item in HUNT to CSUM, no request in IDLE, or nobody taking in DONE, the sequencer waits with everything as it is; in
IDLE and DONE it takes no item even if there is one. -/
def Obligations.ReadRequestStartsOrWaits : Prop :=
  ∀ s : State,
    (s.rx.phase = .idle → s.consumer.rdReq = true →
      exec .readFrame s = .next (s.setRx { s.rx with phase := .hunt })) ∧
    (s.rx.phase ≠ .idle → s.rx.phase ≠ .done → s.line.rxItems = [] → exec .readFrame s = .next s) ∧
    (s.rx.phase = .idle → s.consumer.rdReq = false → exec .readFrame s = .next s) ∧
    (s.rx.phase = .done → s.consumer.rfReady = false → exec .readFrame s = .next s) ∧
    ∀ t, (s.rx.phase = .idle ∨ s.rx.phase = .done) → exec .readFrame s = .next t → t.line = s.line

/-- The frame of READFRAME (R36, R37, R42, R148): at most one item is taken, at most one byte of `rxbuf` is written and
only by RX.DATA at `rx.cnt`; no register of the transmit side, no byte of `txbuf`, no wire and no queue of the
transmit side changes. -/
def Obligations.ReadFrameTouchesOnlyItsOwnState : Prop :=
  ∀ s t : State, exec .readFrame s = .next t →
    t.tx = s.tx ∧ (∀ a, t.txbuf.byteAt a = s.txbuf.byteAt a) ∧ t.producer = s.producer ∧
    t.line.txAnswers = s.line.txAnswers ∧ t.line.txStream = s.line.txStream ∧
    (t.line.rxItems = s.line.rxItems ∨ ∃ x, s.line.rxItems = x :: t.line.rxItems) ∧
    (∀ a, ¬ (s.rx.phase = .data ∧ a = s.rx.cnt.toNat ∧ ∃ b, s.line.rxItems = .byte b :: t.line.rxItems) →
      t.rxbuf.byteAt a = s.rxbuf.byteAt a) ∧
    t.consumer.rdReq = s.consumer.rdReq ∧ t.consumer.rfReady = s.consumer.rfReady ∧
    (t.consumer.taken = s.consumer.taken ∨ s.rx.phase = .done) ∧
    (t.events = s.events ∨ s.rx.phase = .csum ∧ ∃ e, t.events = s.events ++ [e]) ∧
    (t.rx.lenHi = s.rx.lenHi ∨ s.rx.phase = .lenHi) ∧ (t.rx.len = s.rx.len ∨ s.rx.phase = .lenLo) ∧
    ((t.rx.cnt = s.rx.cnt ∧ t.rx.sum = s.rx.sum) ∨ s.rx.phase = .lenLo ∨ s.rx.phase = .data) ∧
    (t.rx.cause = s.rx.cause ∨ t.rx.phase = .done) ∧ (t.rx.status = s.rx.status ∨ t.rx.phase = .done) ∧
    t.rst = s.rst ∧ t.fnOut = s.fnOut ∧ t.fresh = s.fresh ∧ t.agenda = s.agenda

/-- R111 (derived by the spec): a turn of READFRAME that changes anything makes a transition of the table, and every
transition of the table is made by some turn. -/
def Obligations.RxPhaseFollowsItsGraph : Prop :=
  (∀ s t : State, exec .readFrame s = .next t → t = s ∨ (s.rx.phase, t.rx.phase) ∈ rxArrows) ∧
  ∀ a ∈ rxArrows, ∃ s t : State, exec .readFrame s = .next t ∧ t ≠ s ∧ (s.rx.phase, t.rx.phase) = a

/-- R112 (derived by the spec): started in HUNT, the turns of READFRAME compute exactly the reference function: the
same result, the same events in the same order, exactly its items taken; and where the function does not return,
the call stays blocked. -/
def Obligations.ReadFrameTurnsComputeTheReference : Prop :=
  ∀ s : State, s.rx.phase = .hunt →
    match readFrameRef s.line.rxItems with
    | some r =>
      ∃ k t, turns .readFrame k s = .next t ∧ t.rx.phase = .done ∧ readResult t = some r.result ∧
        t.events = s.events ++ r.events ∧ t.line.rxItems = r.rest ∧ k + r.rest.length = s.line.rxItems.length ∧
        t.consumer = s.consumer ∧
        ∀ j, j < k → ∃ u, turns .readFrame j s = .next u ∧ u.rx.phase ≠ .done ∧ u.rx.phase ≠ .idle
    | none =>
      ∀ k, ∃ t, turns .readFrame k s = .next t ∧ t.rx.phase ≠ .done ∧ t.rx.phase ≠ .idle ∧ t.consumer = s.consumer

/-- R113(a), R131(a), R37: garbage without 0x7E and then the envelope of decodable frame data: the Frame is returned,
no event, exactly the garbage and the envelope consumed. -/
def Obligations.GarbageThenFrameReturnsTheFrame : Prop :=
  ∀ (garbage d : List Byte) (f : Frame) (rest : List Item), (0x7E : Byte) ∉ garbage → d.length ≤ 65535 →
    decodeFrame d = .ok f →
    readFrameRef ((garbage ++ envelope d).map .byte ++ rest) = some ⟨.frame f, [], rest⟩

/-- R113(b): a correctly delimited frame whose checksum does not verify, then a valid one: only the valid one is
returned, with one event. -/
def Obligations.CorruptFrameIsSkippedAndTheNextReturned : Prop :=
  ∀ (bad d : List Byte) (c : Byte) (f : Frame) (rest : List Item), bad.length ≤ 65535 → verify bad c = false →
    d.length ≤ 65535 → decodeFrame d = .ok f →
    readFrameRef (([0x7E] ++ enc16 bad.length ++ bad ++ [c] ++ envelope d).map .byte ++ rest) =
      some ⟨.frame f, [.checksumMismatch], rest⟩

/-- R62, R165, R114(a): a stray 0x7E makes the next two bytes a length; every byte of that span is data, a delimiter
among them, and it is judged as one candidate frame. -/
def Obligations.StrayDelimiterSwallowsWhatFollows : Prop :=
  ∀ (h l c : Byte) (span : List Byte) (rest : List Item), span.length = 256 * h.toNat + l.toNat →
    nextCandidate (([0x7E, h, l] ++ span ++ [c]).map .byte ++ rest) = .got (span, c) rest ∧
    ∀ (short : List Byte), short.length < 256 * h.toNat + l.toNat + 1 →
      nextCandidate (([0x7E, h, l] ++ short).map .byte) = .blocked

/-! ### The output ports -/

/-- R20 to R23 (decisions D8 to D11): which outputs are up in which phase; the statuses, the count and the causes are the
registers', `rf_cause` with TRANSPORT_ERROR; a Frame is presented only in DONE with OK, and then it is DECODE of the bytes
in `rxbuf`. -/
def Obligations.OutputsFollowThePhases : Prop :=
  ∀ s : State,
    (rxReady s = true ↔ s.rx.phase ≠ .idle ∧ s.rx.phase ≠ .done) ∧ (rdAck s = true ↔ s.rx.phase = .idle) ∧
    (rfValid s = true ↔ s.rx.phase = .done) ∧ rfStatus s = s.rx.status.code ∧
    (s.rx.status = .transportError → rfCause s = some s.rx.cause) ∧
    (txValid s = true ↔ s.tx.phase = .send) ∧ (wrAck s = true ↔ s.tx.phase = .idle) ∧
    (wdValid s = true ↔ s.tx.phase = .done) ∧ wdCount s = s.tx.idx ∧ wdStatus s = s.tx.status.code ∧
    wdCause s = s.tx.cause ∧ (txLast s = true → txValid s = true) ∧
    ∀ f, rfFrame s = some f ↔ s.rx.phase = .done ∧ s.rx.status = .ok ∧ decodeFrame (candidate s) = .ok f

/-- R60, R34 (decision D7): while a Frame is presented, the record at the receive port carries every field of its kind:
the kind code, the tag (driven for every kind), the fixed fields, the address with its first wire byte in `addr[63:56]`,
and `plen`, the length of the variable part; `rf_pdata` reads that part byte by byte. Fields outside the kind have no
specified value and are not stated (decision D28, log 23); that nothing can be read beyond the part is decision D33 and
log 23. -/
def Obligations.VariablePartIsReadFromRxbuf : Prop :=
  ∀ (s : State) (f : Frame), rfFrame s = some f →
    ∃ r, rfRecord s = some r ∧
      (∀ tag raw, f = .generic tag raw →
        r.kind = 0 ∧ r.tag = tag ∧ r.plen.toNat = raw.length ∧ ∀ p : Half, rfPdata s p = raw[p.toNat]?) ∧
      (∀ id d0 d1 d2 d3 d4 d5 d6 d7 options payload,
        f = .txRequest id ⟨d0, d1, d2, d3, d4, d5, d6, d7⟩ options payload →
        r.kind = 1 ∧ r.tag = 0x00 ∧ r.id = some id ∧ r.options = some options ∧
          (∃ addr, r.addr = some addr ∧
            ((List.range 8).map fun k => (addr >>> (56 - 8 * k)).setWidth 8) = [d0, d1, d2, d3, d4, d5, d6, d7]) ∧
          r.plen.toNat = payload.length ∧ ∀ p : Half, rfPdata s p = payload[p.toNat]?) ∧
      (∀ id status, f = .txStatus id status →
        r.kind = 2 ∧ r.tag = 0x89 ∧ r.id = some id ∧ r.status = some status ∧ r.plen = 0 ∧
          ∀ p : Half, rfPdata s p = none) ∧
      (∀ a0 a1 a2 a3 a4 a5 a6 a7 rssi options payload,
        f = .rxIndicate ⟨a0, a1, a2, a3, a4, a5, a6, a7⟩ rssi options payload →
        r.kind = 3 ∧ r.tag = 0x80 ∧ r.rssi = some rssi ∧ r.options = some options ∧
          (∃ addr, r.addr = some addr ∧
            ((List.range 8).map fun k => (addr >>> (56 - 8 * k)).setWidth 8) = [a0, a1, a2, a3, a4, a5, a6, a7]) ∧
          r.plen.toNat = payload.length ∧ ∀ p : Half, rfPdata s p = payload[p.toNat]?)

/-! ### WRITEFRAME (44_framestream_tx.md) -/

/-- R120, R121, R122 (decisions D11, D17): the record is latched, `tx.n` is the encoded length, and a Frame of more than
65535 bytes is refused with count 0 before anything is sent. -/
def Obligations.WriteRequestIsLatchedAndRangeChecked : Prop :=
  ∀ s : State, s.tx.phase = .idle → s.producer.wrReq = true →
    ∃ t, exec .writeFrame s = .next t ∧ t.tx.frame = s.producer.wrRecord ∧
      t.tx.n.toNat = (encodeFrame (frameOf s.producer.wrRecord s.txbuf)).length ∧
      t.tx.idx = 0 ∧ t.tx.sum = 0 ∧ t.tx.cause = s.tx.cause ∧
      (65535 < (encodeFrame (frameOf s.producer.wrRecord s.txbuf)).length →
        t.tx.phase = .done ∧ t.tx.status = .valueOutOfRange) ∧
      ((encodeFrame (frameOf s.producer.wrRecord s.txbuf)).length ≤ 65535 →
        t.tx.phase = .send ∧ t.tx.status = s.tx.status) ∧
      t.setTx s.tx = s

/-- R123 (decision D31): the byte offered at `tx.idx` is that byte of the envelope of the latched Frame, the checksum
included, and `tx_last` comes exactly with the checksum. -/
def Obligations.OfferedByteIsTheEnvelopeByte : Prop :=
  ∀ s : State, s.tx.phase = .send → TxInv s → TxSum s →
    txData s = (envelope (encodeFrame (frameOf s.tx.frame s.txbuf)))[s.tx.idx.toNat]? ∧
    (txData s).isSome = true ∧
    (txLast s = true ↔ s.tx.idx.toNat + 1 = (envelope (encodeFrame (frameOf s.tx.frame s.txbuf))).length)

/-- R124: an accepted byte joins the transmit stream, the index goes on, and only frame-data bytes enter the sum. -/
def Obligations.AcceptedByteJoinsTheStream : Prop :=
  ∀ (s : State) (a : TxAnswer) (rest : List TxAnswer), s.tx.phase = .send → TxInv s →
    s.line.txAnswers = a :: rest → a.ready = true →
    ∃ t b, exec .writeFrame s = .next t ∧ txData s = some b ∧
      t.line = { s.line with txAnswers := rest, txStream := s.line.txStream ++ [b] } ∧
      t.tx.idx.toNat = s.tx.idx.toNat + 1 ∧
      t.tx.sum.toNat = (if 3 ≤ s.tx.idx.toNat ∧ s.tx.idx.toNat ≤ s.tx.n.toNat + 2
        then (s.tx.sum.toNat + b.toNat) % 256 else s.tx.sum.toNat) ∧
      (a.stop = false → s.tx.idx.toNat ≠ s.tx.n.toNat + 3 → t.tx.phase = .send ∧ t.tx.status = s.tx.status) ∧
      t.tx.frame = s.tx.frame ∧ t.tx.n = s.tx.n ∧ (t.setTx s.tx).setLine s.line = s

/-- R125, R126 (decisions D9, D20): complete, short, or with an error; the count is what the transport accepted, an
answer that neither accepts nor stops leaves the offered byte standing. That the answers stand in a queue, and that such
an answer is used up, is the model's choice (log 14). -/
def Obligations.WriteEndsAsTheTransportSays : Prop :=
  ∀ (s : State) (a : TxAnswer) (rest : List TxAnswer), s.tx.phase = .send → TxInv s →
    s.line.txAnswers = a :: rest →
    ∃ t, exec .writeFrame s = .next t ∧
      t.tx.idx.toNat = s.tx.idx.toNat + (if a.ready = true then 1 else 0) ∧
      (a.stop = true → a.err = true →
        t.tx.phase = .done ∧ t.tx.status = .transportError ∧ t.tx.cause = a.cause) ∧
      (a.stop = true → a.err = false → t.tx.phase = .done ∧ t.tx.status = .ok ∧ t.tx.cause = s.tx.cause) ∧
      (a.stop = false → a.ready = true → s.tx.idx.toNat = s.tx.n.toNat + 3 →
        t.tx.phase = .done ∧ t.tx.status = .ok ∧ t.tx.cause = s.tx.cause ∧ t.tx.idx.toNat = s.tx.n.toNat + 4) ∧
      (a.stop = false → a.ready = false → t = s.setLine { s.line with txAnswers := rest })

/-- R127 (decision D11), R128: the producer takes count, status and cause, and the sequencer is IDLE; with no request,
no answer, or nobody taking, it waits with everything as it is. The list of results taken is the model's record of them
(log 22). -/
def Obligations.WriteResultIsTakenOrWaits : Prop :=
  ∀ s : State,
    (s.tx.phase = .done → s.producer.wdReady = true → exec .writeFrame s =
      .next ((s.setProducer { s.producer with
        taken := s.producer.taken ++ [⟨s.tx.idx, s.tx.status, s.tx.cause⟩] }).setTx
          { s.tx with phase := .idle })) ∧
    (s.tx.phase = .done → s.producer.wdReady = false → exec .writeFrame s = .next s) ∧
    (s.tx.phase = .send → s.line.txAnswers = [] → exec .writeFrame s = .next s) ∧
    (s.tx.phase = .idle → s.producer.wrReq = false → exec .writeFrame s = .next s)

/-- The frame of WRITEFRAME (R36, R38, R42, R128): at most one byte is sent and it is the byte offered; no byte of
memory, no register of the receive side, no wire and no item of the receive side changes. -/
def Obligations.WriteFrameTouchesOnlyItsOwnState : Prop :=
  ∀ s t : State, exec .writeFrame s = .next t →
    t.rx = s.rx ∧ (∀ a, t.rxbuf.byteAt a = s.rxbuf.byteAt a) ∧ (∀ a, t.txbuf.byteAt a = s.txbuf.byteAt a) ∧
    t.consumer = s.consumer ∧ t.line.rxItems = s.line.rxItems ∧
    (t.line.txStream = s.line.txStream ∨
      ∃ b, txData s = some b ∧ t.line.txStream = s.line.txStream ++ [b]) ∧
    (t.line.txAnswers = s.line.txAnswers ∨ ∃ a, s.line.txAnswers = a :: t.line.txAnswers) ∧
    t.producer.wrReq = s.producer.wrReq ∧ t.producer.wrRecord = s.producer.wrRecord ∧
    t.producer.wdReady = s.producer.wdReady ∧ (t.producer.taken = s.producer.taken ∨ s.tx.phase = .done) ∧
    (t.tx.frame = s.tx.frame ∨ s.tx.phase = .idle) ∧ (t.tx.n = s.tx.n ∨ s.tx.phase = .idle) ∧
    (t.tx.cause = s.tx.cause ∨ s.tx.phase = .send ∧ t.tx.status = .transportError) ∧
    t.events = s.events ∧ t.rst = s.rst ∧ t.fnOut = s.fnOut ∧ t.fresh = s.fresh ∧ t.agenda = s.agenda

/-- R129 (derived by the spec): a turn of WRITEFRAME that changes anything makes a transition of the table, and every
transition of the table is made by some turn. -/
def Obligations.TxPhaseFollowsItsGraph : Prop :=
  (∀ s t : State, exec .writeFrame s = .next t → t = s ∨ (s.tx.phase, t.tx.phase) ∈ txArrows) ∧
  ∀ a ∈ txArrows, ∃ s t : State, exec .writeFrame s = .next t ∧ t ≠ s ∧ (s.tx.phase, t.tx.phase) = a

/-- R16: in SEND the running sum is the sum of the frame-data bytes accepted so far, kept by every turn of WRITEFRAME. -/
def Obligations.WriteFrameKeepsItsRunningSum : Prop :=
  ∀ s t : State, TxInv s → TxSum s → exec .writeFrame s = .next t → TxSum t

/-- R130 (derived by the spec): for a transport whose answer to the write is `(w, e)`, the turns of WRITEFRAME compute
exactly the reference function: count, status, cause, and the bytes on the transmit stream. That the transport's answers
stand in a queue, one for each offered byte, is the model's choice (log 14). -/
def Obligations.WriteFrameTurnsComputeTheReference : Prop :=
  ∀ (s : State) (w : Nat) (e : Option Config.TErr) (more : List TxAnswer) (f : Frame) (n : Nat),
    s.tx.phase = .idle → s.producer.wrReq = true → f = frameOf s.producer.wrRecord s.txbuf →
    n = (encodeFrame f).length → w ≤ n + 4 →
    s.line.txAnswers = (if 65535 < n then [] else answersFor (n + 4) w e) ++ more →
    ∃ k t, turns .writeFrame k s = .next t ∧ t.tx.phase = .done ∧
      t.tx.idx.toNat = (writeFrameRef f w e).count ∧ t.tx.status = (writeFrameRef f w e).status ∧
      (∀ c, (writeFrameRef f w e).cause = some c → t.tx.cause = c) ∧
      t.line = { s.line with txAnswers := more, txStream := s.line.txStream ++ (writeFrameRef f w e).sent } ∧
      t.producer = s.producer

/-! ### Errors and events (60_exceptions.md) -/

/-- R148 with the codes of R140 (decision D13): exactly the writes of the table and nothing else. -/
def Obligations.ErrorsWriteExactlyTheirTable : Prop :=
  ∀ (s : State) (e : Config.TErr),
    raiseError .rxChecksumMismatch s =
      (s.setEvents (s.events ++ [.checksumMismatch])).setRx { s.rx with phase := .hunt } ∧
    raiseError .rxMalformedFrameData s =
      (s.setEvents (s.events ++ [.malformedFrameData])).setRx { s.rx with phase := .hunt } ∧
    raiseError (.rxTransportError e) s =
      s.setRx { s.rx with status := .transportError, cause := e, phase := .done } ∧
    raiseError (.txTransportError e) s =
      s.setTx { s.tx with status := .transportError, cause := e, phase := .done } ∧
    raiseError .txValueOutOfRange s =
      s.setTx { s.tx with status := .valueOutOfRange, idx := 0, phase := .done } ∧
    Event.code .checksumMismatch = 1 ∧ Event.code .malformedFrameData = 2 ∧
    RxStatus.code .ok = 0 ∧ RxStatus.code .transportError = 3 ∧
    TxStatus.code .ok = 0 ∧ TxStatus.code .transportError = 3 ∧ TxStatus.code .valueOutOfRange = 4

/-- R146, R141, R142 (decision D14): only READFRAME judging a candidate frame emits an event, at most one a step, and
then the sequencer is back in HUNT within the same call. The list of events is the model's record of them (log 21). -/
def Obligations.OnlyDiscardsEmitEvents : Prop :=
  ∀ s t : State, step s = .next t →
    t.events = s.events ∨
    (∃ e, t.events = s.events ++ [e] ∧ evOut s t = [e.code] ∧ s.rx.phase = .csum ∧ t.rx.phase = .hunt ∧
      ∃ rest, s.agenda = .op (.port .receive) :: rest)

/-- R146 (decision D14): no rule reads the events, and no operation the model's own record of function results (log 5):
whatever events were emitted before and whatever stands at the result port, an operation appends the same events, returns
the same result or leaves the port as it is, and does everything else the same. -/
def Obligations.NoOperationReadsEventsOrResults : Prop :=
  ∀ (i : Instr) (s t : State), exec i s = .next t →
    ∃ (new : List Event) (r : Option FnResult), ∀ (es : List Event) (v : Option FnResult),
      exec i ((s.setEvents es).setFnOut v) = .next ((t.setEvents (es ++ new)).setFnOut (r.or v))

/-! ### Independence, reset, invariants -/

/-- R42: a turn of the RX sequencer and a turn of the TX sequencer give the same state in either order. -/
def Obligations.SequencersCommute : Prop :=
  ∀ s a b : State, exec .readFrame s = .next a → exec .writeFrame s = .next b →
    ∃ t, exec .writeFrame a = .next t ∧ exec .readFrame b = .next t

/-- R160, R161 (decision D21): exactly these writes; buffers, causes and the latched record stay; no item is taken, no
byte sent, no event emitted, no result delivered; a second RESET changes nothing. -/
def Obligations.ResetWritesExactlyItsList : Prop :=
  ∀ s : State, ∃ t, exec .reset s = .next t ∧
    t.rx = ⟨.idle, 0, 0, 0, 0, .ok, s.rx.cause⟩ ∧ t.tx = ⟨.idle, s.tx.frame, 0, 0, 0, .ok, s.tx.cause⟩ ∧
    (t.setRx s.rx).setTx s.tx = s ∧ exec .reset t = .next t ∧ quiescent t

/-- R27 (decision D21): the values and outputs after reset. The causes, the latched record and the wires hold the values
of log 7, 8, 9 and are not stated here; nothing is listed in the buffers (log 10). -/
def Obligations.ResetStateHoldsTheValuesOfR27 : Prop :=
  State.reset.rx = ⟨.idle, 0, 0, 0, 0, .ok, State.reset.rx.cause⟩ ∧
  State.reset.tx = ⟨.idle, State.reset.tx.frame, 0, 0, 0, .ok, State.reset.tx.cause⟩ ∧
  (∀ a, State.reset.rxbuf.byteAt a = none) ∧ (∀ a, State.reset.txbuf.byteAt a = none) ∧
  rxReady State.reset = false ∧ txValid State.reset = false ∧ rfValid State.reset = false ∧
  wdValid State.reset = false ∧ rdAck State.reset = true ∧ wrAck State.reset = true ∧
  exec .reset State.reset = .next State.reset

/-- The invariant holds at reset. -/
def Obligations.BlockInvHoldsAtReset : Prop := BlockInv State.reset

/-- R15, R17 (derived by the spec), with the form of the buffers: every step keeps the invariant, from every state that
has it, environment moves and RESET among them. -/
def Obligations.EveryStepKeepsBlockInv : Prop :=
  ∀ s t : State, BlockInv s → step s = .next t → BlockInv t

/-- R80, R90, R140: no operation of the table stops: from every state of the invariant each answers a next state. -/
def Obligations.EveryOperationCompletes : Prop :=
  ∀ (i : Instr) (s : State), BlockInv s → ∃ t, exec i s = .next t

/-- The model's own representation of the buffers (log 10, no rule of the spec: it gives their offsets and contents, not
how they are held): a list of written offsets in rising order. The form is canonical: memories of that form
that read alike at every offset are the same. -/
def Obligations.MemoriesThatReadAlikeAreEqual : Prop :=
  ∀ m m' : Memory, m.wf = true → m'.wf = true → (∀ a, m.byteAt a = m'.byteAt a) → m = m'
end

