-- ==== Sys2Proof/Laws/Codec.lean ====
section
/-!
SUPPORT. Small lemmas of the value-level functions.
-/

namespace Sys2Proof.Machine

@[simp] theorem sum8_nil : sum8 [] = 0 := rfl

theorem foldl_add_eq (d : List Byte) (a : Byte) : d.foldl (fun s b => s + b) a = a + sum8 d := by
  induction d generalizing a with
  | nil => simp [sum8]
  | cons b d ih => simp only [List.foldl_cons, sum8] at *; rw [ih, ih (0 + b)]; simp [BitVec.add_assoc]

@[simp] theorem sum8_cons (b : Byte) (d : List Byte) : sum8 (b :: d) = b + sum8 d := by
  show (b :: d).foldl (fun s b => s + b) 0 = _
  rw [List.foldl_cons, foldl_add_eq]; simp

theorem sum8_append (d e : List Byte) : sum8 (d ++ e) = sum8 d + sum8 e := by
  induction d with
  | nil => simp
  | cons b d ih => simp [ih, BitVec.add_assoc]

@[simp] theorem pack_nil : pack [] = [] := rfl

@[simp] theorem pack_byte (b : Byte) (ps : List Part) : pack (.byte b :: ps) = b :: pack ps := rfl

@[simp] theorem pack_bytes (bs : List Byte) (ps : List Part) : pack (.bytes bs :: ps) = bs ++ pack ps := rfl

@[simp] theorem enc16_length (n : Nat) : (enc16 n).length = 2 := rfl

theorem envelope_eq (d : List Byte) :
    envelope d = Config.delim :: (enc16 d.length ++ (d ++ [checksum d])) := by simp [envelope]

theorem envelope_length (d : List Byte) : (envelope d).length = d.length + 4 := by
  simp [envelope_eq]; omega

@[simp] theorem addrBytes_length (a : Addr) : (addrBytes a).length = 8 := rfl

theorem dec16_toNat (h l : Byte) : (dec16 h l).toNat = 256 * h.toNat + l.toNat := by
  simp [dec16]; omega

/-! ### DECODE, by tag and by length -/

theorem decodeTxReq_short {d : List Byte} (h : d.length < 11) : decodeTxReq d = .malformed := if_pos h

theorem decodeTxReq_long {d : List Byte} (h : 11 ≤ d.length) :
    decodeTxReq d = .ok (.txRequest (byteOf d 1) (addrOf d 2) (byteOf d 10) (d.drop 11)) :=
  if_neg (not_lt.2 h)

theorem decodeTxStat_short {d : List Byte} (h : d.length < 3) : decodeTxStat d = .malformed := if_pos h

theorem decodeTxStat_long {d : List Byte} (h : 3 ≤ d.length) :
    decodeTxStat d = .ok (.txStatus (byteOf d 1) (byteOf d 2)) := by
  unfold decodeTxStat
  rw [if_neg (not_lt.2 h), if_neg (fun e => by cases e.1)]

theorem decodeRxInd_short {d : List Byte} (h : d.length < 11) : decodeRxInd d = .malformed := if_pos h

theorem decodeRxInd_long {d : List Byte} (h : 11 ≤ d.length) :
    decodeRxInd d = .ok (.rxIndicate (addrOf d 1) (byteOf d 9) (byteOf d 10) (d.drop 11)) :=
  if_neg (not_lt.2 h)

theorem decodeFrame_generic {tag : Byte} (raw : List Byte) (h0 : tag ≠ 0x00) (h1 : tag ≠ 0x89) (h2 : tag ≠ 0x80) :
    decodeFrame (tag :: raw) = .ok (.generic tag raw) :=
  (if_neg h0).trans ((if_neg h1).trans (if_neg h2))

/-- The four ways a tag selects an arm (R57). -/
theorem tag_cases (tag : Byte) : tag = 0x00 ∨ tag = 0x89 ∨ tag = 0x80 ∨ tag ≠ 0x00 ∧ tag ≠ 0x89 ∧ tag ≠ 0x80 := by
  tauto

theorem decodeFrame_txReq (rest : List Byte) : decodeFrame (0x00 :: rest) = decodeTxReq (0x00 :: rest) := rfl
theorem decodeFrame_txStat (rest : List Byte) : decodeFrame (0x89 :: rest) = decodeTxStat (0x89 :: rest) := rfl
theorem decodeFrame_rxInd (rest : List Byte) : decodeFrame (0x80 :: rest) = decodeRxInd (0x80 :: rest) := rfl

end Sys2Proof.Machine
end

