-- ==== Sys2Proof/Laws/State.lean ====
section
/-!
SUPPORT. One lemma per setter and field, true by `rfl`: no later proof unfolds a record update. The composed
setters rewrite to the plain ones.
-/

namespace Sys2Proof.Machine

variable (s : State)

section
variable (v : RxRegs)
@[simp] theorem setRx_rx : (s.setRx v).rx = v := rfl
@[simp] theorem setRx_tx : (s.setRx v).tx = s.tx := rfl
@[simp] theorem setRx_rxbuf : (s.setRx v).rxbuf = s.rxbuf := rfl
@[simp] theorem setRx_txbuf : (s.setRx v).txbuf = s.txbuf := rfl
@[simp] theorem setRx_line : (s.setRx v).line = s.line := rfl
@[simp] theorem setRx_consumer : (s.setRx v).consumer = s.consumer := rfl
@[simp] theorem setRx_producer : (s.setRx v).producer = s.producer := rfl
@[simp] theorem setRx_rst : (s.setRx v).rst = s.rst := rfl
@[simp] theorem setRx_events : (s.setRx v).events = s.events := rfl
@[simp] theorem setRx_fnOut : (s.setRx v).fnOut = s.fnOut := rfl
@[simp] theorem setRx_fresh : (s.setRx v).fresh = s.fresh := rfl
@[simp] theorem setRx_agenda : (s.setRx v).agenda = s.agenda := rfl
@[simp] theorem setRx_setRx (w : RxRegs) : (s.setRx v).setRx w = s.setRx w := rfl
@[simp] theorem setRx_self : s.setRx s.rx = s := rfl
end

section
variable (v : TxRegs)
@[simp] theorem setTx_rx : (s.setTx v).rx = s.rx := rfl
@[simp] theorem setTx_tx : (s.setTx v).tx = v := rfl
@[simp] theorem setTx_rxbuf : (s.setTx v).rxbuf = s.rxbuf := rfl
@[simp] theorem setTx_txbuf : (s.setTx v).txbuf = s.txbuf := rfl
@[simp] theorem setTx_line : (s.setTx v).line = s.line := rfl
@[simp] theorem setTx_consumer : (s.setTx v).consumer = s.consumer := rfl
@[simp] theorem setTx_producer : (s.setTx v).producer = s.producer := rfl
@[simp] theorem setTx_rst : (s.setTx v).rst = s.rst := rfl
@[simp] theorem setTx_events : (s.setTx v).events = s.events := rfl
@[simp] theorem setTx_fnOut : (s.setTx v).fnOut = s.fnOut := rfl
@[simp] theorem setTx_fresh : (s.setTx v).fresh = s.fresh := rfl
@[simp] theorem setTx_agenda : (s.setTx v).agenda = s.agenda := rfl
@[simp] theorem setTx_setTx (w : TxRegs) : (s.setTx v).setTx w = s.setTx w := rfl
@[simp] theorem setTx_self : s.setTx s.tx = s := rfl
end

section
variable (v : Memory)
@[simp] theorem setRxbuf_rx : (s.setRxbuf v).rx = s.rx := rfl
@[simp] theorem setRxbuf_tx : (s.setRxbuf v).tx = s.tx := rfl
@[simp] theorem setRxbuf_rxbuf : (s.setRxbuf v).rxbuf = v := rfl
@[simp] theorem setRxbuf_txbuf : (s.setRxbuf v).txbuf = s.txbuf := rfl
@[simp] theorem setRxbuf_line : (s.setRxbuf v).line = s.line := rfl
@[simp] theorem setRxbuf_consumer : (s.setRxbuf v).consumer = s.consumer := rfl
@[simp] theorem setRxbuf_producer : (s.setRxbuf v).producer = s.producer := rfl
@[simp] theorem setRxbuf_rst : (s.setRxbuf v).rst = s.rst := rfl
@[simp] theorem setRxbuf_events : (s.setRxbuf v).events = s.events := rfl
@[simp] theorem setRxbuf_fnOut : (s.setRxbuf v).fnOut = s.fnOut := rfl
@[simp] theorem setRxbuf_fresh : (s.setRxbuf v).fresh = s.fresh := rfl
@[simp] theorem setRxbuf_agenda : (s.setRxbuf v).agenda = s.agenda := rfl
@[simp] theorem setRxbuf_setRxbuf (w : Memory) : (s.setRxbuf v).setRxbuf w = s.setRxbuf w := rfl
@[simp] theorem setRxbuf_self : s.setRxbuf s.rxbuf = s := rfl
end

section
variable (v : Memory)
@[simp] theorem setTxbuf_rx : (s.setTxbuf v).rx = s.rx := rfl
@[simp] theorem setTxbuf_tx : (s.setTxbuf v).tx = s.tx := rfl
@[simp] theorem setTxbuf_rxbuf : (s.setTxbuf v).rxbuf = s.rxbuf := rfl
@[simp] theorem setTxbuf_txbuf : (s.setTxbuf v).txbuf = v := rfl
@[simp] theorem setTxbuf_line : (s.setTxbuf v).line = s.line := rfl
@[simp] theorem setTxbuf_consumer : (s.setTxbuf v).consumer = s.consumer := rfl
@[simp] theorem setTxbuf_producer : (s.setTxbuf v).producer = s.producer := rfl
@[simp] theorem setTxbuf_rst : (s.setTxbuf v).rst = s.rst := rfl
@[simp] theorem setTxbuf_events : (s.setTxbuf v).events = s.events := rfl
@[simp] theorem setTxbuf_fnOut : (s.setTxbuf v).fnOut = s.fnOut := rfl
@[simp] theorem setTxbuf_fresh : (s.setTxbuf v).fresh = s.fresh := rfl
@[simp] theorem setTxbuf_agenda : (s.setTxbuf v).agenda = s.agenda := rfl
@[simp] theorem setTxbuf_setTxbuf (w : Memory) : (s.setTxbuf v).setTxbuf w = s.setTxbuf w := rfl
@[simp] theorem setTxbuf_self : s.setTxbuf s.txbuf = s := rfl
end

section
variable (v : Line)
@[simp] theorem setLine_rx : (s.setLine v).rx = s.rx := rfl
@[simp] theorem setLine_tx : (s.setLine v).tx = s.tx := rfl
@[simp] theorem setLine_rxbuf : (s.setLine v).rxbuf = s.rxbuf := rfl
@[simp] theorem setLine_txbuf : (s.setLine v).txbuf = s.txbuf := rfl
@[simp] theorem setLine_line : (s.setLine v).line = v := rfl
@[simp] theorem setLine_consumer : (s.setLine v).consumer = s.consumer := rfl
@[simp] theorem setLine_producer : (s.setLine v).producer = s.producer := rfl
@[simp] theorem setLine_rst : (s.setLine v).rst = s.rst := rfl
@[simp] theorem setLine_events : (s.setLine v).events = s.events := rfl
@[simp] theorem setLine_fnOut : (s.setLine v).fnOut = s.fnOut := rfl
@[simp] theorem setLine_fresh : (s.setLine v).fresh = s.fresh := rfl
@[simp] theorem setLine_agenda : (s.setLine v).agenda = s.agenda := rfl
@[simp] theorem setLine_setLine (w : Line) : (s.setLine v).setLine w = s.setLine w := rfl
@[simp] theorem setLine_self : s.setLine s.line = s := rfl
end

section
variable (v : Consumer)
@[simp] theorem setConsumer_rx : (s.setConsumer v).rx = s.rx := rfl
@[simp] theorem setConsumer_tx : (s.setConsumer v).tx = s.tx := rfl
@[simp] theorem setConsumer_rxbuf : (s.setConsumer v).rxbuf = s.rxbuf := rfl
@[simp] theorem setConsumer_txbuf : (s.setConsumer v).txbuf = s.txbuf := rfl
@[simp] theorem setConsumer_line : (s.setConsumer v).line = s.line := rfl
@[simp] theorem setConsumer_consumer : (s.setConsumer v).consumer = v := rfl
@[simp] theorem setConsumer_producer : (s.setConsumer v).producer = s.producer := rfl
@[simp] theorem setConsumer_rst : (s.setConsumer v).rst = s.rst := rfl
@[simp] theorem setConsumer_events : (s.setConsumer v).events = s.events := rfl
@[simp] theorem setConsumer_fnOut : (s.setConsumer v).fnOut = s.fnOut := rfl
@[simp] theorem setConsumer_fresh : (s.setConsumer v).fresh = s.fresh := rfl
@[simp] theorem setConsumer_agenda : (s.setConsumer v).agenda = s.agenda := rfl
@[simp] theorem setConsumer_setConsumer (w : Consumer) : (s.setConsumer v).setConsumer w = s.setConsumer w := rfl
@[simp] theorem setConsumer_self : s.setConsumer s.consumer = s := rfl
end

section
variable (v : Producer)
@[simp] theorem setProducer_rx : (s.setProducer v).rx = s.rx := rfl
@[simp] theorem setProducer_tx : (s.setProducer v).tx = s.tx := rfl
@[simp] theorem setProducer_rxbuf : (s.setProducer v).rxbuf = s.rxbuf := rfl
@[simp] theorem setProducer_txbuf : (s.setProducer v).txbuf = s.txbuf := rfl
@[simp] theorem setProducer_line : (s.setProducer v).line = s.line := rfl
@[simp] theorem setProducer_consumer : (s.setProducer v).consumer = s.consumer := rfl
@[simp] theorem setProducer_producer : (s.setProducer v).producer = v := rfl
@[simp] theorem setProducer_rst : (s.setProducer v).rst = s.rst := rfl
@[simp] theorem setProducer_events : (s.setProducer v).events = s.events := rfl
@[simp] theorem setProducer_fnOut : (s.setProducer v).fnOut = s.fnOut := rfl
@[simp] theorem setProducer_fresh : (s.setProducer v).fresh = s.fresh := rfl
@[simp] theorem setProducer_agenda : (s.setProducer v).agenda = s.agenda := rfl
@[simp] theorem setProducer_setProducer (w : Producer) : (s.setProducer v).setProducer w = s.setProducer w := rfl
@[simp] theorem setProducer_self : s.setProducer s.producer = s := rfl
end

section
variable (v : Bool)
@[simp] theorem setRst_rx : (s.setRst v).rx = s.rx := rfl
@[simp] theorem setRst_tx : (s.setRst v).tx = s.tx := rfl
@[simp] theorem setRst_rxbuf : (s.setRst v).rxbuf = s.rxbuf := rfl
@[simp] theorem setRst_txbuf : (s.setRst v).txbuf = s.txbuf := rfl
@[simp] theorem setRst_line : (s.setRst v).line = s.line := rfl
@[simp] theorem setRst_consumer : (s.setRst v).consumer = s.consumer := rfl
@[simp] theorem setRst_producer : (s.setRst v).producer = s.producer := rfl
@[simp] theorem setRst_rst : (s.setRst v).rst = v := rfl
@[simp] theorem setRst_events : (s.setRst v).events = s.events := rfl
@[simp] theorem setRst_fnOut : (s.setRst v).fnOut = s.fnOut := rfl
@[simp] theorem setRst_fresh : (s.setRst v).fresh = s.fresh := rfl
@[simp] theorem setRst_agenda : (s.setRst v).agenda = s.agenda := rfl
@[simp] theorem setRst_setRst (w : Bool) : (s.setRst v).setRst w = s.setRst w := rfl
@[simp] theorem setRst_self : s.setRst s.rst = s := rfl
end

section
variable (v : List Event)
@[simp] theorem setEvents_rx : (s.setEvents v).rx = s.rx := rfl
@[simp] theorem setEvents_tx : (s.setEvents v).tx = s.tx := rfl
@[simp] theorem setEvents_rxbuf : (s.setEvents v).rxbuf = s.rxbuf := rfl
@[simp] theorem setEvents_txbuf : (s.setEvents v).txbuf = s.txbuf := rfl
@[simp] theorem setEvents_line : (s.setEvents v).line = s.line := rfl
@[simp] theorem setEvents_consumer : (s.setEvents v).consumer = s.consumer := rfl
@[simp] theorem setEvents_producer : (s.setEvents v).producer = s.producer := rfl
@[simp] theorem setEvents_rst : (s.setEvents v).rst = s.rst := rfl
@[simp] theorem setEvents_events : (s.setEvents v).events = v := rfl
@[simp] theorem setEvents_fnOut : (s.setEvents v).fnOut = s.fnOut := rfl
@[simp] theorem setEvents_fresh : (s.setEvents v).fresh = s.fresh := rfl
@[simp] theorem setEvents_agenda : (s.setEvents v).agenda = s.agenda := rfl
@[simp] theorem setEvents_setEvents (w : List Event) : (s.setEvents v).setEvents w = s.setEvents w := rfl
@[simp] theorem setEvents_self : s.setEvents s.events = s := rfl
end

section
variable (v : Option FnResult)
@[simp] theorem setFnOut_rx : (s.setFnOut v).rx = s.rx := rfl
@[simp] theorem setFnOut_tx : (s.setFnOut v).tx = s.tx := rfl
@[simp] theorem setFnOut_rxbuf : (s.setFnOut v).rxbuf = s.rxbuf := rfl
@[simp] theorem setFnOut_txbuf : (s.setFnOut v).txbuf = s.txbuf := rfl
@[simp] theorem setFnOut_line : (s.setFnOut v).line = s.line := rfl
@[simp] theorem setFnOut_consumer : (s.setFnOut v).consumer = s.consumer := rfl
@[simp] theorem setFnOut_producer : (s.setFnOut v).producer = s.producer := rfl
@[simp] theorem setFnOut_rst : (s.setFnOut v).rst = s.rst := rfl
@[simp] theorem setFnOut_events : (s.setFnOut v).events = s.events := rfl
@[simp] theorem setFnOut_fnOut : (s.setFnOut v).fnOut = v := rfl
@[simp] theorem setFnOut_fresh : (s.setFnOut v).fresh = s.fresh := rfl
@[simp] theorem setFnOut_agenda : (s.setFnOut v).agenda = s.agenda := rfl
@[simp] theorem setFnOut_setFnOut (w : Option FnResult) : (s.setFnOut v).setFnOut w = s.setFnOut w := rfl
@[simp] theorem setFnOut_self : s.setFnOut s.fnOut = s := rfl
end

section
variable (v : Nat)
@[simp] theorem setFresh_rx : (s.setFresh v).rx = s.rx := rfl
@[simp] theorem setFresh_tx : (s.setFresh v).tx = s.tx := rfl
@[simp] theorem setFresh_rxbuf : (s.setFresh v).rxbuf = s.rxbuf := rfl
@[simp] theorem setFresh_txbuf : (s.setFresh v).txbuf = s.txbuf := rfl
@[simp] theorem setFresh_line : (s.setFresh v).line = s.line := rfl
@[simp] theorem setFresh_consumer : (s.setFresh v).consumer = s.consumer := rfl
@[simp] theorem setFresh_producer : (s.setFresh v).producer = s.producer := rfl
@[simp] theorem setFresh_rst : (s.setFresh v).rst = s.rst := rfl
@[simp] theorem setFresh_events : (s.setFresh v).events = s.events := rfl
@[simp] theorem setFresh_fnOut : (s.setFresh v).fnOut = s.fnOut := rfl
@[simp] theorem setFresh_fresh : (s.setFresh v).fresh = v := rfl
@[simp] theorem setFresh_agenda : (s.setFresh v).agenda = s.agenda := rfl
@[simp] theorem setFresh_setFresh (w : Nat) : (s.setFresh v).setFresh w = s.setFresh w := rfl
@[simp] theorem setFresh_self : s.setFresh s.fresh = s := rfl
end

section
variable (v : List Turn)
@[simp] theorem setAgenda_rx : (s.setAgenda v).rx = s.rx := rfl
@[simp] theorem setAgenda_tx : (s.setAgenda v).tx = s.tx := rfl
@[simp] theorem setAgenda_rxbuf : (s.setAgenda v).rxbuf = s.rxbuf := rfl
@[simp] theorem setAgenda_txbuf : (s.setAgenda v).txbuf = s.txbuf := rfl
@[simp] theorem setAgenda_line : (s.setAgenda v).line = s.line := rfl
@[simp] theorem setAgenda_consumer : (s.setAgenda v).consumer = s.consumer := rfl
@[simp] theorem setAgenda_producer : (s.setAgenda v).producer = s.producer := rfl
@[simp] theorem setAgenda_rst : (s.setAgenda v).rst = s.rst := rfl
@[simp] theorem setAgenda_events : (s.setAgenda v).events = s.events := rfl
@[simp] theorem setAgenda_fnOut : (s.setAgenda v).fnOut = s.fnOut := rfl
@[simp] theorem setAgenda_fresh : (s.setAgenda v).fresh = s.fresh := rfl
@[simp] theorem setAgenda_agenda : (s.setAgenda v).agenda = v := rfl
@[simp] theorem setAgenda_setAgenda (w : List Turn) : (s.setAgenda v).setAgenda w = s.setAgenda w := rfl
@[simp] theorem setAgenda_self : s.setAgenda s.agenda = s := rfl
end

@[simp] theorem returns_eq (v : FnResult) : s.returns v = s.setFnOut (some v) := rfl
@[simp] theorem rxGoto_eq (p : RxPhase) : s.rxGoto p = s.setRx { s.rx with phase := p } := rfl
@[simp] theorem txGoto_eq (p : TxPhase) : s.txGoto p = s.setTx { s.tx with phase := p } := rfl
@[simp] theorem setItems_eq (xs : List Item) : s.setItems xs = s.setLine { s.line with rxItems := xs } := rfl
@[simp] theorem setAnswers_eq (as : List TxAnswer) :
    s.setAnswers as = s.setLine { s.line with txAnswers := as } := rfl
@[simp] theorem sendByte_eq (b : Byte) :
    s.sendByte b = s.setLine { s.line with txStream := s.line.txStream ++ [b] } := rfl
@[simp] theorem emit_eq (e : Event) : s.emit e = s.setEvents (s.events ++ [e]) := rfl

end Sys2Proof.Machine
end

