-- ==== Sys2Proof/Laws/Memory.lean ====
section
/-!
SUPPORT. The laws of a byte memory: a read after a store, and that every store keeps the form.
-/

namespace Sys2Proof.Machine

theorem Memory.byteAt_cons (c : Host.Cell) (m : Memory) (a : Nat) :
    Memory.byteAt (c :: m) a = if c.1 = a then some c.2 else m.byteAt a := rfl

theorem Memory.byteAt_store_same (m : Memory) (a : Nat) (b : Byte) : (m.store a b).byteAt a = some b := by
  induction m with
  | nil => simp [Memory.store, Memory.byteAt]
  | cons c m ih =>
    unfold Memory.store
    split
    · simp [Memory.byteAt_cons]
    · split
      · simp [Memory.byteAt_cons]
      · rename_i h
        rw [Memory.byteAt_cons, if_neg (fun e => h e.symm), ih]

theorem Memory.byteAt_store_other (m : Memory) {a x : Nat} (b : Byte) (hx : x ≠ a) :
    (m.store a b).byteAt x = m.byteAt x := by
  induction m with
  | nil => simp [Memory.store, Memory.byteAt, hx.symm]
  | cons c m ih =>
    unfold Memory.store
    split
    · rw [Memory.byteAt_cons, if_neg hx.symm]
    · split
      · rename_i h
        rw [Memory.byteAt_cons, Memory.byteAt_cons, if_neg hx.symm, ← h, if_neg hx.symm]
      · rw [Memory.byteAt_cons, Memory.byteAt_cons, ih]

theorem Memory.mem_store {m : Memory} {a : Nat} {b : Byte} {c : Host.Cell} (h : c ∈ m.store a b) :
    c = (a, b) ∨ c ∈ m := by
  induction m with
  | nil => simpa [Memory.store] using h
  | cons d m ih =>
    unfold Memory.store at h
    split at h
    · simpa using h
    · split at h
      · rcases List.mem_cons.1 h with h | h
        · exact .inl h
        · exact .inr (List.mem_cons_of_mem _ h)
      · rcases List.mem_cons.1 h with h | h
        · exact .inr (h ▸ List.mem_cons_self)
        · exact (ih h).imp_right (List.mem_cons_of_mem _)

theorem Memory.wf_iff (m : Memory) :
    m.wf = true ↔ m.Pairwise (fun c d => c.1 < d.1) ∧ ∀ c ∈ m, c.1 < Config.bufSize := by
  simp [Memory.wf]

theorem Memory.wf_nil : Memory.wf [] = true := rfl

theorem Memory.wf_store {m : Memory} {a : Nat} (b : Byte) (hm : m.wf = true) (ha : a < Config.bufSize) :
    (m.store a b).wf = true := by
  rw [Memory.wf_iff] at hm ⊢
  refine ⟨?_, fun c hc => (Memory.mem_store hc).elim (fun h => h ▸ ha) (hm.2 c)⟩
  obtain ⟨hp, -⟩ := hm
  induction m with
  | nil => simp [Memory.store]
  | cons c m ih =>
    rw [List.pairwise_cons] at hp
    unfold Memory.store
    split
    · rename_i h
      refine List.pairwise_cons.2 ⟨fun d hd => ?_, List.pairwise_cons.2 hp⟩
      rcases List.mem_cons.1 hd with rfl | hd
      · exact h
      · exact lt_trans h (hp.1 d hd)
    · split
      · rename_i h
        exact List.pairwise_cons.2 ⟨fun d hd => by simpa [h] using hp.1 d hd, hp.2⟩
      · rename_i h1 h2
        refine List.pairwise_cons.2 ⟨fun d hd => ?_, ih hp.2⟩
        rcases Memory.mem_store hd with rfl | hd
        · exact lt_of_le_of_ne (not_lt.1 h1) (fun e => h2 e.symm)
        · exact hp.1 d hd

@[simp] theorem rxBytes_length (m : Memory) (n : Nat) : (rxBytes m n).length = n := by simp [rxBytes]

@[simp] theorem txBytes_length (m : Memory) (n : Nat) : (txBytes m n).length = n := by simp [txBytes]

theorem rxBytes_zero (m : Memory) : rxBytes m 0 = [] := rfl

theorem rxBytes_succ (m : Memory) (n : Nat) : rxBytes m (n + 1) = rxBytes m n ++ [rxByte m n] := by
  simp [rxBytes, List.range_succ]

theorem rxByte_store_same (m : Memory) (a : Nat) (b : Byte) : rxByte (m.store a b) a = b := by
  simp [rxByte, Memory.byteAt_store_same]

theorem rxByte_store_other (m : Memory) {a x : Nat} (b : Byte) (h : x ≠ a) :
    rxByte (m.store a b) x = rxByte m x := by
  simp [rxByte, Memory.byteAt_store_other m b h]

/-- A store at the end of what has been collected appends the byte. -/
theorem rxBytes_store (m : Memory) (n : Nat) (b : Byte) :
    rxBytes (m.store n b) (n + 1) = rxBytes m n ++ [b] := by
  rw [rxBytes_succ, rxByte_store_same]
  congr 1
  refine List.map_congr_left fun x hx => rxByte_store_other m b ?_
  have := List.mem_range.1 hx
  omega

/-- `storeRx` says once what it can do: it answers next, with the byte stored, exactly below the buffer's end. -/
theorem storeRx_next {k : Nat} {b : Byte} {s t : State} (h : storeRx k b s = .next t) :
    k < Config.bufSize ∧ t = s.setRxbuf (s.rxbuf.store k b) := by
  unfold storeRx at h
  split at h
  · rename_i hk
    cases h
    exact ⟨hk, rfl⟩
  · cases h

end Sys2Proof.Machine
end

