-- ==== Sys2Proof/Laws/Env.lean ====
section
/-!
SUPPORT. What an environment move leaves alone, and what a step does, said once.
-/

namespace Sys2Proof.Machine

/-- The producer's store keeps the form of `txbuf` and touches nothing but `txbuf` and the count of free
values. -/
theorem producerWrites_next {offset : Half} {b : Byte} {s t : State} (h : producerWrites offset b s = .next t) :
    ∃ v k, offset.toNat < Config.bufSize ∧ t = (s.setTxbuf (s.txbuf.store offset.toNat v)).setFresh k ∧
      (s.tx.phase = .idle → v = b ∧ k = s.fresh) := by
  unfold producerWrites at h
  split at h
  · cases h
  · rename_i ho
    split at h
    · cases h
      exact ⟨b, s.fresh, by omega, rfl, fun _ => ⟨rfl, rfl⟩⟩
    · rename_i hp
      cases h
      exact ⟨_, _, by omega, rfl, fun e => absurd e hp⟩

/-- No environment move touches a register of the block, `rxbuf`, or the record of events. -/
theorem envMove_next {m : EnvMove} {s t : State} (h : envMove m s = .next t) :
    t.rx = s.rx ∧ t.tx = s.tx ∧ t.rxbuf = s.rxbuf ∧ t.events = s.events ∧
      (t.txbuf = s.txbuf ∨ ∃ a v, a < Config.bufSize ∧ t.txbuf = s.txbuf.store a v) := by
  cases m with
  | writeTxbuf offset b =>
    obtain ⟨v, k, ho, rfl, -⟩ := producerWrites_next h
    exact ⟨rfl, rfl, rfl, rfl, .inr ⟨_, _, ho, rfl⟩⟩
  | _ => cases h; exact ⟨rfl, rfl, rfl, rfl, .inl rfl⟩

/-- The ways a step answers next: RESET, nobody moves, an environment move, an operation. -/
theorem step_next {s t : State} (h : step s = .next t) :
    (s.rst = true ∧ exec .reset (s.setRst false) = .next t) ∨
    (s.rst = false ∧ s.agenda = [] ∧ t = s) ∨
    (∃ m rest, s.rst = false ∧ s.agenda = .env m :: rest ∧ envMove m (s.setAgenda rest) = .next t) ∨
    (∃ w rest i, s.rst = false ∧ s.agenda = .op w :: rest ∧ decode w = .ok i ∧
      exec i (s.setAgenda rest) = .next t) := by
  unfold step at h
  split at h
  · rename_i hr; exact .inl ⟨hr, h⟩
  · rename_i hr
    have hr : s.rst = false := by simpa using hr
    split at h
    · rename_i ha; cases h; exact .inr (.inl ⟨hr, ha, rfl⟩)
    · rename_i m rest ha; exact .inr (.inr (.inl ⟨m, rest, hr, ha, h⟩))
    · rename_i w rest ha
      split at h
      · rename_i i hd; exact .inr (.inr (.inr ⟨w, rest, i, hr, ha, hd, h⟩))
      · cases h

end Sys2Proof.Machine
end

