-- ==== Sys2Proof/Laws/Operands.lean ====
section
/-!
SUPPORT. The address at the port and the address as bytes undo each other (20_memory.md R34).
-/

namespace Sys2Proof.Machine

/-- Bit by bit: the last wire byte is the least significant. -/
theorem addrToPort_getLsbD (a : Addr) (i : Nat) : (addrToPort a).getLsbD i =
    if i < 8 then a.b7.getLsbD i else if i < 16 then a.b6.getLsbD (i - 8)
    else if i < 24 then a.b5.getLsbD (i - 16) else if i < 32 then a.b4.getLsbD (i - 24)
    else if i < 40 then a.b3.getLsbD (i - 32) else if i < 48 then a.b2.getLsbD (i - 40)
    else if i < 56 then a.b1.getLsbD (i - 48) else a.b0.getLsbD (i - 56) := by
  show BitVec.getLsbD (a.b0 ++ a.b1 ++ a.b2 ++ a.b3 ++ a.b4 ++ a.b5 ++ a.b6 ++ a.b7) i = _
  iterate 7 rw [BitVec.getLsbD_append]
  simp only [Nat.sub_sub]
  split_ifs <;> first | rfl | omega

/-- A wire byte of a port address is known by its bits. -/
theorem addrByte_eq {addr : BitVec 64} {k : Nat} {b : Byte}
    (h : ∀ i, i < 8 → addr.getLsbD (56 - 8 * k + i) = b.getLsbD i) : addrByte addr k = b := by
  apply BitVec.eq_of_getLsbD_eq
  intro i hi
  simp only [addrByte, BitVec.getLsbD_extractLsb', hi, decide_true, Bool.true_and, h i hi]

/-- The byte of a port address by shifting. -/
theorem addrByte_eq_shift (addr : BitVec 64) (k : Nat) : addrByte addr k = (addr >>> (56 - 8 * k)).setWidth 8 := rfl

@[simp] theorem addrOfPort_addrToPort (a : Addr) : addrOfPort (addrToPort a) = a := by
  obtain ⟨b0, b1, b2, b3, b4, b5, b6, b7⟩ := a
  simp only [addrOfPort, Addr.mk.injEq]
  refine ⟨addrByte_eq ?_, addrByte_eq ?_, addrByte_eq ?_, addrByte_eq ?_,
    addrByte_eq ?_, addrByte_eq ?_, addrByte_eq ?_, addrByte_eq ?_⟩ <;>
    (intro i hi; rw [addrToPort_getLsbD]; interval_cases i <;> rfl)

end Sys2Proof.Machine
end

