-- ==== Sys2Proof/Laws/PerInstr.lean ====
section
/-!
SUPPORT. Families of facts about the operations as syntax, one lemma per constructor.
-/

namespace Sys2Proof.Laws

/-- R50's column "selected by": which of its mechanisms presents an operation. -/
inductive Mechanism
  | envelope | tag | kind | wiring | port
  deriving DecidableEq, Repr

def mechanism : Selection → Mechanism
  | .envelope _ => .envelope
  | .frameData _ => .tag
  | .record _ => .kind
  | .wired _ => .wiring
  | .port _ => .port

/-- R50, row by row; FRAME is the envelope format of R51. -/
def rowMechanism : Instr → Mechanism
  | .frame _ _ => .envelope
  | .decTxReq _ => .tag
  | .decTxStat _ => .tag
  | .decRxInd _ => .tag
  | .decGeneric _ _ => .tag
  | .encGeneric _ _ => .kind
  | .encTxReq _ _ _ _ => .kind
  | .encTxStat _ _ => .kind
  | .encRxInd _ _ _ _ => .kind
  | .decode _ => .wiring
  | .encode _ => .wiring
  | .checksum _ => .wiring
  | .verify _ _ => .wiring
  | .enc16 _ => .wiring
  | .dec16 _ _ => .wiring
  | .pack _ => .wiring
  | .readFrame => .port
  | .writeFrame => .port
  | .reset => .port

namespace SelectedBy

/-- An operation's selection goes through the mechanism R50 names for it. -/
def Statement (i : Instr) : Prop := mechanism (encode i) = rowMechanism i

theorem frame (data : List Byte) (csum : Byte) : Statement (.frame data csum) := rfl
theorem decTxReq (rest : List Byte) : Statement (.decTxReq rest) := rfl
theorem decTxStat (rest : List Byte) : Statement (.decTxStat rest) := rfl
theorem decRxInd (rest : List Byte) : Statement (.decRxInd rest) := rfl
theorem decGeneric (tag : Byte) (raw : List Byte) : Statement (.decGeneric tag raw) := rfl
theorem encGeneric (tag : Byte) (plen : Half) : Statement (.encGeneric tag plen) := rfl
theorem encTxReq (id : Byte) (addr : BitVec 64) (options : Byte) (plen : Half) :
    Statement (.encTxReq id addr options plen) := rfl
theorem encTxStat (id status : Byte) : Statement (.encTxStat id status) := rfl
theorem encRxInd (addr : BitVec 64) (rssi options : Byte) (plen : Half) :
    Statement (.encRxInd addr rssi options plen) := rfl
theorem decode (frameData : List Byte) : Statement (.decode frameData) := rfl
theorem encode (f : Frame) : Statement (.encode f) := rfl
theorem checksum (data : List Byte) : Statement (.checksum data) := rfl
theorem verify (data : List Byte) (received : Byte) : Statement (.verify data received) := rfl
theorem enc16 (n : Nat) : Statement (.enc16 n) := rfl
theorem dec16 (b0 b1 : Byte) : Statement (.dec16 b0 b1) := rfl
theorem pack (parts : List Part) : Statement (.pack parts) := rfl
theorem readFrame : Statement .readFrame := rfl
theorem writeFrame : Statement .writeFrame := rfl
theorem reset : Statement .reset := rfl

end SelectedBy

end Sys2Proof.Laws
end

