-- ==== Sys2Proof/Laws/Rx.lean ====
section
/-!
SUPPORT. Everything one turn of READFRAME can do, said once (43_framestream_rx.md R100 to R110).
-/

namespace Sys2Proof.Machine

/-- RX.LEN_LO (R103), said of the state before the item is taken off. -/
theorem rxLenLo_setItems (b : Byte) (s : State) (rest : List Item) :
    rxLenLo b (s.setItems rest) = (s.setLine { s.line with rxItems := rest }).setRx { s.rx with
      len := dec16 s.rx.lenHi b, cnt := 0, sum := 0,
      phase := if dec16 s.rx.lenHi b = 0 then .csum else .data } := rfl

/-- RX.DATA (R104) below the buffer's end, said of the state before the item is taken off. -/
theorem rxData_setItems (b : Byte) (s : State) (rest : List Item) (h : s.rx.cnt.toNat < Config.bufSize) :
    rxData b (s.setItems rest) = .next (((s.setLine { s.line with rxItems := rest }).setRx { s.rx with
      sum := s.rx.sum + b, cnt := s.rx.cnt + 1,
      phase := if s.rx.cnt + 1 = s.rx.len then .csum else .data }).setRxbuf
        (s.rxbuf.store s.rx.cnt.toNat b)) :=
  if_pos h

/-- What RX.DATA does when it answers next (R104). -/
theorem rxData_next {b : Byte} {s t : State} (h : rxData b s = .next t) :
    s.rx.cnt.toNat < Config.bufSize ∧
    t = (s.setRx { s.rx with
          sum := s.rx.sum + b, cnt := s.rx.cnt + 1,
          phase := if s.rx.cnt + 1 = s.rx.len then .csum else .data }).setRxbuf
        (s.rxbuf.store s.rx.cnt.toNat b) := by
  simpa using storeRx_next h

/-- The turns of the RX sequencer that answer a next state. -/
inductive RxTurn (s : State) : State → Prop
  | waits : RxTurn s s
  | request (hp : s.rx.phase = .idle) (hr : s.consumer.rdReq = true) : RxTurn s (s.rxGoto .hunt)
  | taken (hp : s.rx.phase = .done) (hr : s.consumer.rfReady = true) : RxTurn s (rxReturn s)
  | error (e : Config.TErr) (rest : List Item) (hp : rxReady s = true)
      (hi : s.line.rxItems = .err e :: rest) : RxTurn s (raiseError (.rxTransportError e) (s.setItems rest))
  | hunt (b : Byte) (rest : List Item) (hp : s.rx.phase = .hunt) (hi : s.line.rxItems = .byte b :: rest) :
      RxTurn s (rxHunt b (s.setItems rest))
  | lenHi (b : Byte) (rest : List Item) (hp : s.rx.phase = .lenHi) (hi : s.line.rxItems = .byte b :: rest) :
      RxTurn s (rxLenHi b (s.setItems rest))
  | lenLo (b : Byte) (rest : List Item) (hp : s.rx.phase = .lenLo) (hi : s.line.rxItems = .byte b :: rest) :
      RxTurn s ((s.setLine { s.line with rxItems := rest }).setRx { s.rx with
        len := dec16 s.rx.lenHi b, cnt := 0, sum := 0,
        phase := if dec16 s.rx.lenHi b = 0 then .csum else .data })
  | data (b : Byte) (rest : List Item) (hp : s.rx.phase = .data) (hi : s.line.rxItems = .byte b :: rest)
      (hk : s.rx.cnt.toNat < Config.bufSize) :
      RxTurn s (((s.setLine { s.line with rxItems := rest }).setRx { s.rx with
        sum := s.rx.sum + b, cnt := s.rx.cnt + 1,
        phase := if s.rx.cnt + 1 = s.rx.len then .csum else .data }).setRxbuf
          (s.rxbuf.store s.rx.cnt.toNat b))
  | csum (c : Byte) (rest : List Item) (hp : s.rx.phase = .csum) (hi : s.line.rxItems = .byte c :: rest) :
      RxTurn s (rxCsum c (s.setItems rest))

theorem rxTake_next {s t : State} (hr : rxReady s = true) (h : rxTake s = .next t) : RxTurn s t := by
  unfold rxTake at h
  split at h
  · cases h; exact .waits
  · rename_i b rest hi
    unfold rxByteTaken at h
    simp only [setItems_eq, setLine_rx] at h
    split at h
    · rename_i hp; simp [rxReady, hp] at hr
    · rename_i hp; cases h; exact .hunt b rest hp hi
    · rename_i hp; cases h; exact .lenHi b rest hp hi
    · rename_i hp; cases h; exact .lenLo b rest hp hi
    · rename_i hp
      have hk : s.rx.cnt.toNat < Config.bufSize := (rxData_next h).1
      have e : t = _ := Host.Outcome.next.inj (h.symm.trans (rxData_setItems b s rest hk))
      exact e ▸ .data b rest hp hi hk
    · rename_i hp; cases h; exact .csum b rest hp hi
    · rename_i hp; simp [rxReady, hp] at hr
  · rename_i e rest hi
    cases h; exact .error e rest hr hi

theorem execReadFrame_next {s t : State} (h : execReadFrame s = .next t) : RxTurn s t := by
  unfold execReadFrame at h
  split at h
  · rename_i hp
    split at h
    · rename_i hr; cases h; exact .request hp hr
    · cases h; exact .waits
  · rename_i hp
    split at h
    · rename_i hr; cases h; exact .taken hp hr
    · cases h; exact .waits
  all_goals (rename_i hp; exact rxTake_next (by simp [rxReady, hp]) h)

/-- While items are taken, a turn is exactly taking one. -/
theorem execReadFrame_ready {s : State} (hr : rxReady s = true) : execReadFrame s = rxTake s := by
  unfold execReadFrame
  cases hp : s.rx.phase <;> simp [rxReady, hp] at hr ⊢

/-- RX.CSUM accepts or discards, by `judge` (R105 to R107). -/
theorem rxCsum_cases (c : Byte) (s : State) :
    (judge s.rx.sum (candidate s) c = none ∧
      rxCsum c s = s.setRx { s.rx with status := .ok, phase := .done }) ∨
    (∃ e, judge s.rx.sum (candidate s) c = some e ∧
      rxCsum c s = (s.setEvents (s.events ++ [e])).setRx { s.rx with phase := .hunt }) := by
  unfold rxCsum
  cases judge s.rx.sum (candidate s) c with
  | none => exact .inl ⟨rfl, rfl⟩
  | some e => cases e <;> exact .inr ⟨_, rfl, rfl⟩

/-- The judgement accepts exactly when the running sum verifies and DECODE succeeds. -/
theorem judge_eq_none {sum : Byte} {d : List Byte} {c : Byte} :
    judge sum d c = none ↔ verifySum sum c = true ∧ ∃ f, decodeFrame d = .ok f := by
  unfold judge
  split
  · cases h : decodeFrame d <;> simp_all
  · simp_all

end Sys2Proof.Machine
end

