-- ==== Sys2Proof/Laws/Tx.lean ====
section
/-!
SUPPORT. Everything one turn of WRITEFRAME can do, said once (44_framestream_tx.md R120 to R127).
-/

namespace Sys2Proof.Machine

/-- The turns of the TX sequencer that answer a next state. -/
inductive TxTurn (s : State) : State → Prop
  | waits : TxTurn s s
  | request (hp : s.tx.phase = .idle) (hr : s.producer.wrReq = true) : TxTurn s (txAccept s)
  | taken (hp : s.tx.phase = .done) (hr : s.producer.wdReady = true) : TxTurn s (txReturn s)
  | answered (a : TxAnswer) (rest : List TxAnswer) (b : Byte) (hp : s.tx.phase = .send)
      (ha : s.line.txAnswers = a :: rest) (hb : envelopeByte s.tx s.txbuf s.tx.idx.toNat = some b) :
      TxTurn s (txEnd a (if a.ready then txAccepted b (s.setAnswers rest) else s.setAnswers rest))

theorem txSend_next {s t : State} (hp : s.tx.phase = .send) (h : txSend s = .next t) : TxTurn s t := by
  unfold txSend at h
  split at h
  · cases h; exact .waits
  · rename_i a rest ha
    unfold txAnswered at h
    split at h
    · cases h
    · rename_i b hb
      cases h
      exact .answered a rest b hp ha (by simpa using hb)

theorem execWriteFrame_next {s t : State} (h : execWriteFrame s = .next t) : TxTurn s t := by
  unfold execWriteFrame at h
  split at h
  · rename_i hp
    split at h
    · rename_i hr; cases h; exact .request hp hr
    · cases h; exact .waits
  · rename_i hp; exact txSend_next hp h
  · rename_i hp
    split at h
    · rename_i hr; cases h; exact .taken hp hr
    · cases h; exact .waits

/-- Accepting a call (R120 to R122): refused before anything is sent, or on to SEND. -/
theorem txAccept_cases (s : State) :
    (65535 < (encodedLen s.producer.wrRecord).toNat ∧
      txAccept s = s.setTx { s.tx with
        frame := s.producer.wrRecord, n := encodedLen s.producer.wrRecord, idx := 0, sum := 0,
        status := .valueOutOfRange, phase := .done }) ∨
    ((encodedLen s.producer.wrRecord).toNat ≤ 65535 ∧
      txAccept s = s.setTx { s.tx with
        frame := s.producer.wrRecord, n := encodedLen s.producer.wrRecord, idx := 0, sum := 0,
        phase := .send }) := by
  unfold txAccept
  by_cases h : 65535 < (encodedLen s.producer.wrRecord).toNat
  · exact .inl ⟨h, by simp only [h, if_true]; rfl⟩
  · exact .inr ⟨by omega, by simp only [h, if_false]⟩

/-- An accepted byte (R124), said of the state before the answer is taken off the queue. -/
theorem txAccepted_setAnswers (s : State) (rest : List TxAnswer) (b : Byte) :
    txAccepted b (s.setAnswers rest) =
      (s.setLine { s.line with txAnswers := rest, txStream := s.line.txStream ++ [b] }).setTx { s.tx with
        sum := if 3 ≤ s.tx.idx.toNat ∧ s.tx.idx.toNat ≤ s.tx.n.toNat + 2 then s.tx.sum + b else s.tx.sum,
        idx := s.tx.idx + 1 } := rfl

/-- How a write ends, or goes on (R125, R126). -/
theorem txEnd_cases (a : TxAnswer) (s : State) :
    (a.stop = true ∧ a.err = true ∧
      txEnd a s = s.setTx { s.tx with status := .transportError, cause := a.cause, phase := .done }) ∨
    ((a.stop = true → a.err = false) ∧ (s.tx.idx.toNat = s.tx.n.toNat + 4 ∨ a.stop = true) ∧
      txEnd a s = s.setTx { s.tx with status := .ok, phase := .done }) ∨
    (a.stop = false ∧ s.tx.idx.toNat ≠ s.tx.n.toNat + 4 ∧ txEnd a s = s) := by
  unfold txEnd
  obtain ⟨r, st, er, c⟩ := a
  cases st <;> cases er <;> by_cases h : s.tx.idx.toNat = s.tx.n.toNat + 4 <;> simp [h, raiseError]

/-- The end of a write reads neither the events nor the result port. -/
theorem txEnd_setEvents_setFnOut (a : TxAnswer) (s : State) (es : List Event) (v : Option FnResult) :
    txEnd a ((s.setEvents es).setFnOut v) = ((txEnd a s).setEvents es).setFnOut v := by
  rcases txEnd_cases a s with ⟨h1, h2, h⟩ | ⟨h1, h2, h⟩ | ⟨h1, h2, h⟩ <;>
    rcases txEnd_cases a ((s.setEvents es).setFnOut v) with ⟨g1, g2, g⟩ | ⟨g1, g2, g⟩ | ⟨g1, g2, g⟩ <;>
    rw [h, g] <;> first | rfl | (exfalso; simp_all)

end Sys2Proof.Machine
end

