-- ==== Sys2Proof/Tests/Slice0.lean ====
section
/-!
SUPPORT. Tests. Expected values are the rows of 95_test_vectors.md, or computed by hand from the rule a docstring
names. Then one witness for each statement that has hypotheses: a state and operands that meet all of them.
-/

namespace Sys2Proof.Tests

open Sys2Proof Sys2Proof.Machine

/-! ### Helpers: small states -/

/-- What holds of the next state; false where there is none. -/
def look (o : Out) (f : State → Bool) : Bool :=
  match o with
  | .next t => f t
  | .fault _ => false
  | .refused _ => false

/-- The result port after an operation. -/
def fnIs (i : Instr) (s : State) (v : FnResult) : Bool := look (exec i s) fun t => decide (t.fnOut = some v)

/-- The bytes `bs` as a written buffer. -/
def written (bs : List Byte) : Memory := (List.range bs.length).zip bs

/-- A receive call in phase `p` with the items at hand. -/
def rxAt (p : RxPhase) (items : List Item) : State :=
  (State.reset.setRx { State.reset.rx with phase := p }).setLine { State.reset.line with rxItems := items }

/-- A receive call in CSUM with the candidate frame `d` collected, and the items at hand. -/
def csumAt (d : List Byte) (items : List Item) : State :=
  ((rxAt .csum items).setRx { State.reset.rx with
    phase := .csum, len := BitVec.ofNat 16 d.length, cnt := BitVec.ofNat 16 d.length, sum := sum8 d }).setRxbuf
      (written d)

/-- A receive call in DATA: `d` collected, `len` to come in all. -/
def dataAt (d : List Byte) (len : Half) (items : List Item) : State :=
  (csumAt d items).setRx { (csumAt d items).rx with phase := .data, len := len }

/-- A call in DONE with OK and `d` collected. -/
def presenting (d : List Byte) : State := (csumAt d []).setRx { (csumAt d []).rx with phase := .done }

/-- V-E3 at the transmit frame port. -/
def statRecord : PortRecord := ⟨2, 0, 0x01, 0, 0, 0x00, 0, 0⟩

/-- V-E1 at the transmit frame port. -/
def hiRecord : PortRecord := ⟨1, 0, 0x01, 0x000000000000FFFF, 0x00, 0, 0, 2⟩

/-- A transmit call for `r` with the variable part `var`, at index `idx` with running sum `sum`. -/
def sendAt (r : PortRecord) (var : List Byte) (idx : U17) (sum : Byte) (as : List TxAnswer) : State :=
  ((State.reset.setTx ⟨.send, r, encodedLen r, idx, sum, .ok, ⟨0⟩⟩).setTxbuf (written var)).setLine
    { State.reset.line with txAnswers := as }

/-- An idle transmitter asked to send `r` with the variable part `var`. -/
def askedFor (r : PortRecord) (var : List Byte) (as : List TxAnswer) : State :=
  ((State.reset.setProducer { State.reset.producer with wrReq := true, wrRecord := r }).setTxbuf
    (written var)).setLine { State.reset.line with txAnswers := as }

def yes : TxAnswer := ⟨true, false, false, ⟨0⟩⟩
def stopShort : TxAnswer := ⟨true, true, false, ⟨0⟩⟩
def stopError : TxAnswer := ⟨false, true, true, ⟨9⟩⟩
def notYet : TxAnswer := ⟨false, false, true, ⟨9⟩⟩

/-- The items of bytes. -/
def items (bs : List Byte) : List Item := bs.map .byte

/-! ### WellFormed refuses what the encodings cannot say -/

theorem test_wf_generic_tag_00 : wellFormed (.decGeneric 0x00 []) = false := by decide
theorem test_wf_generic_tag_89 : wellFormed (.decGeneric 0x89 [1, 2]) = false := by decide
theorem test_wf_generic_tag_80 : wellFormed (.decGeneric 0x80 []) = false := by decide
theorem test_wf_generic_tag_81 : wellFormed (.decGeneric 0x81 []) = true := by decide
theorem test_wf_frame_too_long : wellFormed (.frame (List.replicate 65536 0) 0) = false := by
  simp only [wellFormed, List.length_replicate]; decide
theorem test_wf_frame_longest : wellFormed (.frame (List.replicate 65535 0) 0) = true := by
  simp only [wellFormed, List.length_replicate]; decide

/-! ### Decoding, one word written out for each constructor -/

/-- V-F3. -/
theorem test_decode_frame :
    decode (.envelope [0x7E, 0x00, 0x03, 0x89, 0x01, 0x00, 0x75]) = .ok (.frame [0x89, 0x01, 0x00] 0x75) := rfl
/-- V-E2. -/
theorem test_decode_decTxReq :
    decode (.frameData [0x00, 0x07, 1, 2, 3, 4, 5, 6, 7, 8, 0x01]) =
      .ok (.decTxReq [0x07, 1, 2, 3, 4, 5, 6, 7, 8, 0x01]) := rfl
/-- V-E4. -/
theorem test_decode_decTxStat : decode (.frameData [0x89, 0x2A, 0x01]) = .ok (.decTxStat [0x2A, 0x01]) := rfl
/-- V-E6. -/
theorem test_decode_decRxInd :
    decode (.frameData [0x80, 0x00, 0x13, 0xA2, 0x00, 0x40, 0x0A, 0x01, 0x27, 0x28, 0x02]) =
      .ok (.decRxInd [0x00, 0x13, 0xA2, 0x00, 0x40, 0x0A, 0x01, 0x27, 0x28, 0x02]) := rfl
/-- V-D11: a tag next to a recognised one. -/
theorem test_decode_decGeneric : decode (.frameData [0x88, 0x01, 0x02]) = .ok (.decGeneric 0x88 [0x01, 0x02]) := rfl
/-- V-E8 at the port, `kind` = 00. -/
theorem test_decode_encGeneric : decode (.record ⟨0b00, 0x8A, 1, 2, 3, 4, 5, 1⟩) = .ok (.encGeneric 0x8A 1) := rfl
/-- V-E1 at the port, `kind` = 01. -/
theorem test_decode_encTxReq :
    decode (.record ⟨0b01, 9, 0x01, 0x000000000000FFFF, 0x00, 4, 5, 2⟩) =
      .ok (.encTxReq 0x01 0x000000000000FFFF 0x00 2) := rfl
/-- V-W11: `kind` = 10, the fields outside the kind are ignored. -/
theorem test_decode_encTxStat : decode (.record ⟨0b10, 0x55, 0x01, 7, 8, 0x02, 6, 9⟩) = .ok (.encTxStat 0x01 0x02) :=
  rfl
/-- V-E5 at the port, `kind` = 11. -/
theorem test_decode_encRxInd :
    decode (.record ⟨0b11, 9, 8, 0x0013A200400A0127, 0x00, 7, 0x28, 2⟩) =
      .ok (.encRxInd 0x0013A200400A0127 0x28 0x00 2) := rfl
/-- R50: the functions are selected by wiring, the port operations by their handshake. -/
theorem test_decode_wired :
    decode (.wired (.decode [1])) = .ok (.decode [1]) ∧
    decode (.wired (.encode (.txStatus 1 0))) = .ok (.encode (.txStatus 1 0)) ∧
    decode (.wired (.checksum [1])) = .ok (.checksum [1]) ∧
    decode (.wired (.verify [1] 2)) = .ok (.verify [1] 2) ∧
    decode (.wired (.enc16 300)) = .ok (.enc16 300) ∧
    decode (.wired (.dec16 1 2)) = .ok (.dec16 1 2) ∧
    decode (.wired (.pack [.byte 1])) = .ok (.pack [.byte 1]) :=
  ⟨rfl, rfl, rfl, rfl, rfl, rfl, rfl⟩
theorem test_decode_ports :
    decode (.port .receive) = .ok .readFrame ∧ decode (.port .transmit) = .ok .writeFrame ∧
    decode (.port .rst) = .ok .reset := ⟨rfl, rfl, rfl⟩
/-- R51: what is no envelope is refused by name; R81: empty frame data has no tag. -/
theorem test_decode_rejects :
    decode (.envelope [0x7F, 0x00, 0x00, 0xFF]) = .error .noDelimiter ∧
    decode (.envelope [0x7E, 0x00, 0x01, 0xFF]) = .error .truncated ∧
    decode (.envelope [0x7E, 0x00, 0x00, 0xFF, 0x00]) = .error .overlong ∧
    decode (.frameData []) = .error .noTag := ⟨rfl, rfl, rfl, rfl⟩
/-- The table's numbering: byte 1 of the word is bits 15..8. -/
theorem test_table_words :
    decodeTableWord 8 0x7E = some (.frame [] 0x00) ∧
    decodeTableWord 24 0x018A89 = some (.decTxStat [0x8A, 0x01]) ∧
    decodeTableWord 8 0xFF = some (.decGeneric 0xFF []) ∧
    decodeTableWord 8 0x00 = some (.decTxReq [0, 0, 0, 0, 0, 0, 0, 0, 0, 0]) := by decide
/-- The word placed after reset is what the next step runs: 8A 00 is a Generic (V-E8). -/
theorem test_fetch_generic :
    look (step (State.reset.withFetchWord 16 0x008A))
      (fun t => decide (t.fnOut = some (.decoded (.ok (.generic 0x8A [0x00]))))) = true := by decide
theorem test_fetch_frame :
    look (step (State.reset.withFetchWord 8 0x7E))
      (fun t => decide (t.line.rxItems = [.byte 0x7E, .byte 0x00, .byte 0x00, .byte 0x00])) = true := by decide

/-! ### ByteCodec -/

/-- V-B10, V-B5. -/
theorem test_checksum :
    fnIs (.checksum [0x89, 0x01, 0x00]) State.reset (.byte 0x75) = true ∧
    fnIs (.checksum [0xFF, 0x01]) State.reset (.byte 0xFF) = true := by decide
/-- V-B11, V-B1. -/
theorem test_checksum_hi :
    fnIs (.checksum [0x00, 0x01, 0x00, 0x00, 0x00, 0x00, 0x00, 0x00, 0xFF, 0xFF, 0x00, 0x68, 0x69]) State.reset
      (.byte 0x2F) = true ∧
    fnIs (.checksum []) State.reset (.byte 0xFF) = true := by decide
/-- V-B13, V-B14, V-B19. -/
theorem test_verify :
    fnIs (.verify [0x89, 0x01, 0x00] 0x75) State.reset (.bool true) = true ∧
    fnIs (.verify [0x89, 0x01, 0x00] 0x74) State.reset (.bool false) = true ∧
    fnIs (.verify [0x01, 0x89, 0x00] 0x75) State.reset (.bool true) = true := by decide
/-- V-B24, V-B25, V-B28, and D18's 70000. -/
theorem test_enc16 :
    fnIs (.enc16 256) State.reset (.bytes [0x01, 0x00]) = true ∧
    fnIs (.enc16 0x1234) State.reset (.bytes [0x12, 0x34]) = true ∧
    fnIs (.enc16 65535) State.reset (.bytes [0xFF, 0xFF]) = true ∧
    fnIs (.enc16 70000) State.reset (.bytes [0x11, 0x70]) = true := by decide
/-- V-B24, V-B26. -/
theorem test_dec16 :
    fnIs (.dec16 0x01 0x00) State.reset (.int 256) = true ∧
    fnIs (.dec16 0x7E 0x00) State.reset (.int 32256) = true := by decide
/-- V-B30 (the source's example), V-B32. -/
theorem test_pack :
    fnIs (.pack [.byte 0x01, .bytes [0x02, 0x03], .byte 0x04]) State.reset (.bytes [0x01, 0x02, 0x03, 0x04]) = true ∧
    fnIs (.pack [.bytes [], .byte 0x7E, .bytes []]) State.reset (.bytes [0x7E]) = true := by decide
/-- V-F1: the envelope of V-E1. -/
theorem test_envelope :
    envelope [0x00, 0x01, 0x00, 0x00, 0x00, 0x00, 0x00, 0x00, 0xFF, 0xFF, 0x00, 0x68, 0x69] =
      [0x7E, 0x00, 0x0D, 0x00, 0x01, 0x00, 0x00, 0x00, 0x00, 0x00, 0x00, 0xFF, 0xFF, 0x00, 0x68, 0x69, 0x2F] := by
  decide
/-- R51: the envelope joins what the transport holds already. -/
theorem test_frame :
    look (exec (.frame [0x89, 0x01, 0x00] 0x75) (rxAt .hunt (items [0x55]))) (fun t =>
      decide (t.line.rxItems = items [0x55, 0x7E, 0x00, 0x03, 0x89, 0x01, 0x00, 0x75])) = true := by decide

/-! ### FrameModel -/

/-- V-E1, V-D4. -/
theorem test_decTxReq :
    fnIs (.decTxReq [0x01, 0x00, 0x00, 0x00, 0x00, 0x00, 0x00, 0xFF, 0xFF, 0x00, 0x68, 0x69]) State.reset
      (.decoded (.ok (.txRequest 0x01 ⟨0, 0, 0, 0, 0, 0, 0xFF, 0xFF⟩ 0x00 [0x68, 0x69]))) = true ∧
    fnIs (.decTxReq [0x01, 0x00, 0x00, 0x00, 0x00, 0x00, 0x00, 0xFF, 0xFF]) State.reset
      (.decoded .malformed) = true := by decide
/-- V-D7, V-D6. -/
theorem test_decTxStat :
    fnIs (.decTxStat [0x05, 0x00, 0xAA, 0xBB]) State.reset (.decoded (.ok (.txStatus 0x05 0x00))) = true ∧
    fnIs (.decTxStat [0x05]) State.reset (.decoded .malformed) = true := by decide
/-- V-E5, V-D8. -/
theorem test_decRxInd :
    fnIs (.decRxInd [0x00, 0x13, 0xA2, 0x00, 0x40, 0x0A, 0x01, 0x27, 0x28, 0x00, 0x48, 0x69]) State.reset
      (.decoded (.ok (.rxIndicate ⟨0x00, 0x13, 0xA2, 0x00, 0x40, 0x0A, 0x01, 0x27⟩ 0x28 0x00 [0x48, 0x69]))) = true ∧
    fnIs (.decRxInd [0x01, 0x02, 0x03, 0x04, 0x05, 0x06, 0x07, 0x08, 0x30]) State.reset
      (.decoded .malformed) = true := by decide
/-- V-E11, V-D10. -/
theorem test_decGeneric :
    fnIs (.decGeneric 0x7E [0x7E]) State.reset (.decoded (.ok (.generic 0x7E [0x7E]))) = true ∧
    fnIs (.decGeneric 0x01 []) State.reset (.decoded (.ok (.generic 0x01 []))) = true := by decide
/-- V-S6 (given with bytes by the source). -/
theorem test_decode_op :
    fnIs (.decode []) State.reset (.decoded .malformed) = true ∧
    fnIs (.decode [0xFF]) State.reset (.decoded (.ok (.generic 0xFF []))) = true := by decide
/-- V-E10. -/
theorem test_encGeneric :
    fnIs (.encGeneric 0x81 5) (State.reset.setTxbuf (written [0x12, 0x34, 0x28, 0x00, 0x41]))
      (.bytes [0x81, 0x12, 0x34, 0x28, 0x00, 0x41]) = true := by decide
/-- V-E2, with an address whose bytes all differ. -/
theorem test_encTxReq :
    fnIs (.encTxReq 0x07 0x0102030405060708 0x01 0) State.reset
      (.bytes [0x00, 0x07, 0x01, 0x02, 0x03, 0x04, 0x05, 0x06, 0x07, 0x08, 0x01]) = true := by decide
/-- V-E4. -/
theorem test_encTxStat : fnIs (.encTxStat 0x2A 0x01) State.reset (.bytes [0x89, 0x2A, 0x01]) = true := by decide
/-- V-E5. -/
theorem test_encRxInd :
    fnIs (.encRxInd 0x0013A200400A0127 0x28 0x00 2) (State.reset.setTxbuf (written [0x48, 0x69]))
      (.bytes [0x80, 0x00, 0x13, 0xA2, 0x00, 0x40, 0x0A, 0x01, 0x27, 0x28, 0x00, 0x48, 0x69]) = true := by decide
/-- V-E1, V-E12 (a Generic with a recognised tag is encoded as it stands). -/
theorem test_encode_op :
    fnIs (.encode (.txRequest 0x01 ⟨0, 0, 0, 0, 0, 0, 0xFF, 0xFF⟩ 0x00 [0x68, 0x69])) State.reset
      (.bytes [0x00, 0x01, 0x00, 0x00, 0x00, 0x00, 0x00, 0x00, 0xFF, 0xFF, 0x00, 0x68, 0x69]) = true ∧
    fnIs (.encode (.generic 0x89 [0x05, 0x00])) State.reset (.bytes [0x89, 0x05, 0x00]) = true := by decide

/-! ### READFRAME: rows of P1, P2, P4, P5, P6 -/

/-- P2 step 11's kind of row: `rxbuf[1]` <- 01, sum 8A, count 2; the length 0x0100 is read big-endian. -/
theorem test_read_data_and_length :
    look (exec .readFrame (dataAt [0x89] 3 (items [0x01]))) (fun t =>
      decide (t.rxbuf = written [0x89, 0x01] ∧ t.rx.sum = 0x8A ∧ t.rx.cnt = 2 ∧ t.rx.phase = .data)) = true ∧
    look (exec .readFrame ((rxAt .lenLo (items [0x00])).setRx ⟨.lenLo, 0x01, 9, 9, 9, .ok, ⟨0⟩⟩)) (fun t =>
      decide (t.rx = ⟨.data, 0x01, 256, 0, 0, .ok, ⟨0⟩⟩)) = true := by decide
/-- P1 step 10 and P2 step 7: 8A + 75 = FF is accepted, B4 + 4A = FE is not. -/
theorem test_read_checksum :
    look (exec .readFrame (csumAt [0x89, 0x01, 0x00] (items [0x75]))) (fun t =>
      decide (t.rx.phase = .done ∧ t.rx.status = .ok ∧ t.events = [] ∧
        rfFrame t = some (.txStatus 0x01 0x00))) = true ∧
    look (exec .readFrame (csumAt [0x89, 0x2A, 0x01] (items [0x4A]))) (fun t =>
      decide (t.rx.phase = .hunt ∧ t.events = [.checksumMismatch] ∧ rfFrame t = none)) = true := by decide
/-- V-RX4, V-RX5, V-RX14, V-RX12 on the reference function. -/
theorem test_readFrameRef :
    readFrameRef (items [0x7E, 0x00, 0x03, 0x89, 0x02, 0x00, 0x75, 0x7E, 0x00, 0x03, 0x89, 0x01, 0x00, 0x75]) =
      some ⟨.frame (.txStatus 0x01 0x00), [.checksumMismatch], []⟩ ∧
    readFrameRef (items [0x7E, 0x00, 0x02, 0x89, 0x05, 0x71, 0x7E, 0x00, 0x03, 0x89, 0x05, 0x00, 0x71]) =
      some ⟨.frame (.txStatus 0x05 0x00), [.malformedFrameData], []⟩ ∧
    readFrameRef (items [0x7E, 0x00, 0x03, 0x89] ++ [.err ⟨9⟩] ++ items [0x01]) =
      some ⟨.transportError ⟨9⟩, [], items [0x01]⟩ ∧
    readFrameRef (items [0x7E, 0x00, 0x03, 0x89, 0x01, 0x00, 0x7E, 0x00, 0x01, 0xFF, 0x00]) = none := by decide
/-- V-E5 at the receive frame port: the record and its variable part at `rxbuf[11..12]`. -/
theorem test_receive_port :
    let s := (csumAt [0x80, 0x00, 0x13, 0xA2, 0x00, 0x40, 0x0A, 0x01, 0x27, 0x28, 0x00, 0x48, 0x69] [])
    let t := s.setRx { s.rx with phase := .done }
    rfRecord t = some ⟨3, 0x80, none, some 0x0013A200400A0127, some 0x00, none, some 0x28, 2⟩ ∧
    rfPdata t 0 = some 0x48 ∧ rfPdata t 1 = some 0x69 ∧ rfPdata t 2 = none := by decide

/-! ### WRITEFRAME: rows of P3, P7, V-W -/

/-- P3 steps 1, 13 and 17: the delimiter does not enter the sum, FF does, and 2F = FF - D0 is the last byte. -/
theorem test_write_bytes :
    look (exec .writeFrame (sendAt hiRecord [0x68, 0x69] 0 0 [yes])) (fun t =>
      decide (t.line.txStream = [0x7E] ∧ t.tx.idx = 1 ∧ t.tx.sum = 0x00)) = true ∧
    look (exec .writeFrame (sendAt hiRecord [0x68, 0x69] 12 0x00 [yes])) (fun t =>
      decide (t.line.txStream = [0xFF] ∧ t.tx.idx = 13 ∧ t.tx.sum = 0xFF)) = true ∧
    look (exec .writeFrame (sendAt hiRecord [0x68, 0x69] 16 0xD0 [yes])) (fun t =>
      decide (t.line.txStream = [0x2F] ∧ t.tx.idx = 17 ∧ t.tx.sum = 0xD0 ∧ t.tx.phase = .done ∧
        t.tx.status = .ok)) = true := by decide
/-- V-W6 and V-W8: `tx.n` = 65536 is refused with count 0, 65535 is sent. -/
theorem test_write_range :
    look (exec .writeFrame (askedFor ⟨0, 0x01, 0, 0, 0, 0, 0, 65535⟩ [] [])) (fun t =>
      decide (t.tx.phase = .done ∧ t.tx.status = .valueOutOfRange ∧ t.tx.n = 65536 ∧ t.tx.idx = 0)) = true ∧
    look (exec .writeFrame (askedFor ⟨0, 0x01, 0, 0, 0, 0, 0, 65534⟩ [] [])) (fun t =>
      decide (t.tx.phase = .send ∧ t.tx.n = 65535)) = true := by decide
/-- V-W10 on the reference function; a write the transport stops after 5 bytes (P7). -/
theorem test_writeFrameRef :
    writeFrameRef (.generic 0x89 [0x05, 0x00]) 7 none =
      ⟨7, .ok, none, [0x7E, 0x00, 0x03, 0x89, 0x05, 0x00, 0x71]⟩ ∧
    writeFrameRef (.txRequest 0x01 ⟨0, 0, 0, 0, 0, 0, 0xFF, 0xFF⟩ 0x00 [0x68, 0x69]) 5 none =
      ⟨5, .ok, none, [0x7E, 0x00, 0x0D, 0x00, 0x01]⟩ := by decide

/-! ### RESET -/

/-- V-X1. -/
theorem test_reset :
    look (exec .reset ((State.reset.setRx ⟨.data, 5, 13, 7, 1, .transportError, ⟨3⟩⟩).setTx
      ⟨.send, hiRecord, 13, 4, 2, .valueOutOfRange, ⟨4⟩⟩)) (fun t =>
        decide (t.rx = ⟨.idle, 0, 0, 0, 0, .ok, ⟨3⟩⟩ ∧ t.tx = ⟨.idle, hiRecord, 0, 0, 0, .ok, ⟨4⟩⟩)) = true := by decide
/-- R160: `rst` wins over the operation on the agenda, which waits. -/
theorem test_reset_wins :
    look (step ((rxAt .data []).setRst true |>.setAgenda [.op (.wired (.checksum []))])) (fun t =>
      decide (t.rx.phase = .idle ∧ t.fnOut = none ∧ t.agenda.length = 1)) = true := by decide

/-! ### Witnesses: the hypotheses of each statement are met together, each clause at its boundary -/

theorem witness_ChecksumSubtractsWrappedSumFromFF : List.Perm ([0x89, 0x01] : List Byte) [0x01, 0x89] := by decide

theorem witness_SingleCorruptionAlwaysFailsVerify :
    verify [0x89, 0x01, 0x00] 0x75 = true ∧ 2 < ([0x89, 0x01, 0x00] : List Byte).length ∧
    (0x01 : Byte) ≠ ([0x89, 0x01, 0x00] : List Byte)[2] ∧ (0x74 : Byte) ≠ 0x75 ∧
    List.Perm ([0x89, 0x01, 0x00] : List Byte) [0x01, 0x89, 0x00] := by decide

theorem witness_Dec16ReadsBigEndianAndInvertsEnc16 : 65535 ≤ 65535 ∧ 0 ≤ 65535 := by decide

theorem witness_DecodeSelectsArmByTag :
    ((0x01 : Byte) ≠ 0x00 ∧ (0x01 : Byte) ≠ 0x89 ∧ (0x01 : Byte) ≠ 0x80) ∧
    ((0x88 : Byte) ≠ 0x00 ∧ (0x88 : Byte) ≠ 0x89 ∧ (0x88 : Byte) ≠ 0x80) := by decide

/-- Ten bytes with the tag are too few, eleven are enough. -/
theorem witness_DecTxReqReadsFieldsByIndex :
    ((0x00 : Byte) :: [1, 2, 3, 4, 5, 6, 7, 8, 9]).length < 11 ∧
    11 ≤ ((0x00 : Byte) :: [1, 2, 3, 4, 5, 6, 7, 8, 9, 10]).length := by decide

theorem witness_DecTxStatReadsTwoBytesIgnoresRest : ((0x89 : Byte) :: [5]).length < 3 := by decide

theorem witness_DecRxIndReadsFieldsByIndex : ((0x80 : Byte) :: [1, 2, 3, 4, 5, 6, 7, 8, 9]).length < 11 := by decide

theorem witness_DecGenericKeepsEveryByte : decodeFrame [0x7E, 0x7E] = .ok (.generic 0x7E [0x7E]) := by decide

/-- V-D7: more bytes than the Frame encodes to. -/
theorem witness_DecodeSucceedsExactlyOnLongEnoughData :
    decodeFrame [0x89, 0x05, 0x00, 0xAA] = .ok (.txStatus 0x05 0x00) ∧
    (encodeFrame (.txStatus 0x05 0x00)).length ≠ ([0x89, 0x05, 0x00, 0xAA] : List Byte).length := by decide

theorem witness_EncArmsReadRecordAndTxbuf : (State.reset.setTxbuf [(65533, 7)]).txbuf.byteAt 65533 = some 7 := by decide

theorem witness_EncodedLengthFollowsKindAndPlen :
    (⟨0, 1, 0, 0, 0, 0, 0, 65535⟩ : PortRecord).kind = 0 ∧ hiRecord.kind = 1 ∧ statRecord.kind = 2 ∧
    (⟨3, 0, 0, 0, 0, 0, 0, 65535⟩ : PortRecord).kind = 3 := by decide

theorem witness_DecodeInvertsEncodeExactly :
    decodeFrame [0x89, 0x05, 0x00] = .ok (.txStatus 0x05 0x00) ∧
    decodeFrame [0x89, 0x05, 0x00, 0xAA] = .ok (.txStatus 0x05 0x00) := by decide

/-- The longest frame and the nearest tags. -/
theorem witness_DecodeOfEncodeIsTheOperation :
    wellFormed (.frame (List.replicate 65535 0x7E) 0x7E) = true ∧ wellFormed (.decGeneric 0x81 []) = true ∧
    wellFormed (.encTxReq 1 2 3 65535) = true := by
  refine ⟨?_, by decide, by decide⟩
  simp only [wellFormed, List.length_replicate]; decide

theorem witness_SelectionHasOneMeaning :
    decode (.envelope [0x7E, 0x00, 0x00, 0xFF]) = .ok (.frame [] 0xFF) ∧
    ∀ r, (Selection.envelope [0x7E, 0x00, 0x00, 0xFF]) ≠ .record r := ⟨rfl, fun _ h => by cases h⟩

theorem witness_StepRunsTheSelectedOperation :
    (State.reset.setAgenda [.op (.wired (.checksum [1]))]).rst = false ∧
    (State.reset.setAgenda [.op (.wired (.checksum [1]))]).agenda = [.op (.wired (.checksum [1]))] ∧
    decode (.wired (.checksum [1])) = .ok (.checksum [1]) := ⟨rfl, rfl, rfl⟩

theorem witness_ResetInputWinsOverEveryOtherStep :
    ((rxAt .data []).setRst true |>.setAgenda [.op (.port .receive)]).rst = true := rfl

/-- One witness for each clause; the last byte of `txbuf`, in IDLE and during a call. -/
theorem witness_EnvironmentMovesLandBetweenSteps :
    (∀ m : EnvMove, (State.reset.setAgenda [.env m]).rst = false ∧
      (State.reset.setAgenda [.env m]).agenda = [.env m]) ∧
    (65534 : Half).toNat < 65535 ∧ (State.reset.setAgenda [.env (.writeTxbuf 65534 1)]).tx.phase = .idle ∧
    (sendAt statRecord [] 0 0 []).tx.phase ≠ .idle := ⟨fun _ => ⟨rfl, rfl⟩, by decide, by decide, by decide⟩

theorem witness_FrameBytesArriveInEnvelopeOrder : (List.replicate 65535 (0x7E : Byte)).length ≤ 65535 := by
  rw [List.length_replicate]

/-- One for each group the statement names. -/
theorem witness_FunctionsWriteNoState :
    exec (.encTxStat 1 2) State.reset = .next (State.reset.setFnOut (some (.bytes [0x89, 1, 2]))) ∧
    exec (.decTxStat [1, 2]) State.reset = .next (State.reset.setFnOut (some (.decoded (.ok (.txStatus 1 2))))) ∧
    exec (.enc16 256) State.reset = .next (State.reset.setFnOut (some (.bytes [1, 0]))) := ⟨rfl, rfl, rfl⟩

theorem witness_HuntDropsBytesUntilTheDelimiter :
    (rxAt .hunt (items [0x7E])).rx.phase = .hunt ∧
    (rxAt .hunt (items [0x7E])).line.rxItems = .byte 0x7E :: [] ∧
    (rxAt .hunt (items [0x7F, 1])).line.rxItems = .byte 0x7F :: items [1] ∧ (0x7F : Byte) ≠ 0x7E := by decide

theorem witness_FirstLengthByteIsKept :
    (rxAt .lenHi (items [0x7E])).rx.phase = .lenHi ∧
    (rxAt .lenHi (items [0x7E])).line.rxItems = .byte 0x7E :: [] := by decide

/-- A length of 0 and a length of 1. -/
theorem witness_SecondLengthByteStartsTheAssembly :
    (rxAt .lenLo (items [0x00])).rx.phase = .lenLo ∧
    (rxAt .lenLo (items [0x00])).line.rxItems = .byte 0x00 :: [] ∧
    (rxAt .lenLo (items [0x01])).line.rxItems = .byte 0x01 :: [] := by decide

/-- The first of many bytes, and the last of the longest frame. -/
theorem witness_DataByteIsStoredAndSummed :
    (dataAt [] 2 (items [0x7E])).rx.phase = .data ∧
    (dataAt [] 2 (items [0x7E])).line.rxItems = .byte 0x7E :: [] ∧
    (dataAt [] 2 (items [0x7E])).rx.cnt.toNat < (dataAt [] 2 (items [0x7E])).rx.len.toNat ∧
    (65534 : Half).toNat < (65535 : Half).toNat := by decide

theorem csumAt_inv (d : List Byte) (xs : List Item) (h1 : sumRight (csumAt d xs)) (h2 : collected (csumAt d xs)) :
    RxInv (csumAt d xs) := ⟨rfl, h1, h2⟩

theorem witness_rxInv_csum (xs : List Item) : RxInv (csumAt [0x89, 0x01, 0x00] xs) :=
  csumAt_inv _ _ (by simp only [sumRight, csumAt]; rfl) (by
    intro i hi
    have h : i < 3 := hi
    match i, h with
    | 0, _ => rfl
    | 1, _ => rfl
    | 2, _ => rfl)

/-- The empty candidate frame (V-RX9, V-RX10). -/
theorem witness_rxInv_empty (xs : List Item) : RxInv (csumAt [] xs) :=
  csumAt_inv _ _ rfl fun i hi => absurd hi (Nat.not_lt_zero i)

theorem witness_ValidFrameIsPresented :
    (csumAt [0x89, 0x01, 0x00] (items [0x75])).rx.phase = .csum ∧
    RxInv (csumAt [0x89, 0x01, 0x00] (items [0x75])) ∧
    (csumAt [0x89, 0x01, 0x00] (items [0x75])).line.rxItems = .byte 0x75 :: [] ∧
    verify (candidate (csumAt [0x89, 0x01, 0x00] (items [0x75]))) 0x75 = true ∧
    decodeFrame (candidate (csumAt [0x89, 0x01, 0x00] (items [0x75]))) = .ok (.txStatus 0x01 0x00) :=
  ⟨rfl, witness_rxInv_csum _, rfl, by decide, by decide⟩

/-- Both discards, at length 0: V-RX10 and V-RX9. -/
theorem witness_BadCandidateIsDiscardedWhole :
    RxInv (csumAt [] (items [0x00])) ∧ (csumAt [] (items [0x00])).rx.phase = .csum ∧
    (csumAt [] (items [0x00])).line.rxItems = .byte 0x00 :: [] ∧
    verify (candidate (csumAt [] (items [0x00]))) 0x00 = false ∧
    RxInv (csumAt [] (items [0xFF])) ∧ (csumAt [] (items [0xFF])).line.rxItems = .byte 0xFF :: [] ∧
    verify (candidate (csumAt [] (items [0xFF]))) 0xFF = true ∧
    decodeFrame (candidate (csumAt [] (items [0xFF]))) = .malformed :=
  ⟨witness_rxInv_empty _, rfl, rfl, by decide, witness_rxInv_empty _, rfl, by decide, by decide⟩

theorem witness_ErrorTokenEndsTheReadCall :
    (rxAt .data [.err ⟨9⟩]).rx.phase ≠ .idle ∧ (rxAt .data [.err ⟨9⟩]).rx.phase ≠ .done ∧
    (rxAt .data [.err ⟨9⟩]).line.rxItems = .err ⟨9⟩ :: [] := by decide

/-- A result of either status, presented and awaited. -/
def doneWith (status : RxStatus) : State :=
  let s := csumAt [0x89, 0x01, 0x00] []
  (s.setRx { s.rx with phase := .done, status := status }).setConsumer ⟨false, true, []⟩

theorem witness_ReadResultIsTakenOnce :
    (doneWith .ok).rx.phase = .done ∧ (doneWith .ok).consumer.rfReady = true ∧ (doneWith .ok).rx.status = .ok ∧
    RxInv (doneWith .ok) ∧ (doneWith .transportError).rx.status = .transportError ∧
    RxInv (doneWith .transportError) :=
  ⟨rfl, rfl, rfl, fun _ => ⟨rfl, by decide, (witness_rxInv_csum []).2.2, .txStatus 0x01 0x00, by decide⟩, rfl,
    fun h => by cases h⟩

theorem witness_ReadRequestStartsOrWaits :
    (State.reset.setConsumer ⟨true, false, []⟩).rx.phase = .idle ∧
    (State.reset.setConsumer ⟨true, false, []⟩).consumer.rdReq = true ∧
    (rxAt .csum []).rx.phase ≠ .idle ∧ (rxAt .csum []).rx.phase ≠ .done ∧ (rxAt .csum []).line.rxItems = [] ∧
    State.reset.consumer.rdReq = false ∧ (rxAt .done (items [1])).rx.phase = .done ∧
    (rxAt .done (items [1])).consumer.rfReady = false := by decide

theorem witness_ReadFrameTouchesOnlyItsOwnState :
    exec .readFrame (dataAt [] 1 (items [5])) = .next
      (((dataAt [] 1 []).setRxbuf [(0, 5)]).setRx ⟨.csum, 0, 1, 1, 5, .ok, ⟨0⟩⟩) := rfl

theorem witness_ReadFrameTurnsComputeTheReference :
    (rxAt .hunt (items [0x7E, 0x00, 0x01, 0xFF, 0x00])).rx.phase = .hunt ∧
    readFrameRef (items [0x7E, 0x00, 0x01, 0xFF, 0x00]) = some ⟨.frame (.generic 0xFF []), [], []⟩ ∧
    readFrameRef (items [0x7E, 0x00, 0x01, 0xFF]) = none := by decide

/-- P1. -/
theorem witness_GarbageThenFrameReturnsTheFrame :
    (0x7E : Byte) ∉ ([0x11, 0x22, 0x33] : List Byte) ∧ ([0x89, 0x01, 0x00] : List Byte).length ≤ 65535 ∧
    decodeFrame [0x89, 0x01, 0x00] = .ok (.txStatus 0x01 0x00) := by decide

/-- P2. -/
theorem witness_CorruptFrameIsSkippedAndTheNextReturned :
    ([0x89, 0x2A, 0x01] : List Byte).length ≤ 65535 ∧ verify [0x89, 0x2A, 0x01] 0x4A = false ∧
    decodeFrame [0x89, 0x01, 0x00] = .ok (.txStatus 0x01 0x00) := by decide

/-- A span with a delimiter in it, and one byte too few. -/
theorem witness_StrayDelimiterSwallowsWhatFollows :
    ([0x7E, 0x00] : List Byte).length = 256 * (0x00 : Byte).toNat + (0x02 : Byte).toNat ∧
    ([0x7E, 0x00] : List Byte).length < 256 * (0x00 : Byte).toNat + (0x02 : Byte).toNat + 1 := by decide

/-- One Frame of each kind presented: V-E3, V-E8, V-E2, V-E6. -/
theorem witness_VariablePartIsReadFromRxbuf :
    rfFrame (doneWith .ok) = some (.txStatus 0x01 0x00) ∧
    rfFrame (presenting [0x8A, 0x00]) = some (.generic 0x8A [0x00]) ∧
    rfFrame (presenting [0x00, 0x07, 1, 2, 3, 4, 5, 6, 7, 8, 0x01]) =
      some (.txRequest 0x07 ⟨1, 2, 3, 4, 5, 6, 7, 8⟩ 0x01 []) ∧
    rfFrame (presenting [0x80, 0x00, 0x13, 0xA2, 0x00, 0x40, 0x0A, 0x01, 0x27, 0x28, 0x02]) =
      some (.rxIndicate ⟨0x00, 0x13, 0xA2, 0x00, 0x40, 0x0A, 0x01, 0x27⟩ 0x28 0x02 []) := by decide

theorem witness_OutputsFollowThePhases :
    txLast (sendAt hiRecord [0x68, 0x69] 16 0xD0 []) = true ∧
    (doneWith .transportError).rx.status = .transportError := by decide

/-- `tx.n` = 65536 and 65535 (V-W7, V-W9). -/
theorem witness_WriteRequestIsLatchedAndRangeChecked :
    (askedFor { hiRecord with plen := 65525 } [] []).tx.phase = .idle ∧
    (askedFor { hiRecord with plen := 65525 } [] []).producer.wrReq = true ∧
    65535 < (encodeFrame (frameOf { hiRecord with plen := 65525 } [])).length ∧
    (encodeFrame (frameOf { hiRecord with plen := 65524 } [])).length ≤ 65535 := by
  refine ⟨rfl, rfl, ?_, ?_⟩ <;> simp [frameOf, hiRecord, encodeFrame, encodeTxReq, pack, partBytes, addrBytes, txBytes]

theorem witness_txInv (idx : U17) (h : idx.toNat < 17) (sum : Byte) (as : List TxAnswer) :
    TxInv (sendAt hiRecord [0x68, 0x69] idx sum as) := 
  ⟨rfl, (by decide : 1 ≤ (13 : U17).toNat), (by decide : (13 : U17).toNat ≤ 65535), h⟩

/-- The first byte and the checksum byte. -/
theorem witness_OfferedByteIsTheEnvelopeByte :
    (sendAt hiRecord [0x68, 0x69] 16 0xD0 []).tx.phase = .send ∧ TxInv (sendAt hiRecord [0x68, 0x69] 16 0xD0 []) ∧
    TxSum (sendAt hiRecord [0x68, 0x69] 16 0xD0 []) ∧ TxInv (sendAt hiRecord [0x68, 0x69] 0 0 []) ∧
    TxSum (sendAt hiRecord [0x68, 0x69] 0 0 []) :=
  ⟨rfl, witness_txInv 16 (by decide) _ _, fun _ => by decide, witness_txInv 0 (by decide) _ _, fun _ => by decide⟩

theorem witness_AcceptedByteJoinsTheStream :
    (sendAt hiRecord [0x68, 0x69] 2 0 [yes]).tx.phase = .send ∧ TxInv (sendAt hiRecord [0x68, 0x69] 2 0 [yes]) ∧
    (sendAt hiRecord [0x68, 0x69] 2 0 [yes]).line.txAnswers = yes :: [] ∧ yes.ready = true ∧ yes.stop = false ∧
    (sendAt hiRecord [0x68, 0x69] 2 0 [yes]).tx.idx.toNat ≠ (sendAt hiRecord [0x68, 0x69] 2 0 [yes]).tx.n.toNat + 3 :=
  ⟨rfl, witness_txInv 2 (by decide) _ _, rfl, rfl, rfl, by decide⟩

/-- Each kind of answer; the last byte. -/
theorem witness_WriteEndsAsTheTransportSays :
    (sendAt hiRecord [0x68, 0x69] 16 0xD0 [yes]).tx.phase = .send ∧
    TxInv (sendAt hiRecord [0x68, 0x69] 16 0xD0 [yes]) ∧
    (sendAt hiRecord [0x68, 0x69] 16 0xD0 [yes]).line.txAnswers = yes :: [] ∧
    (sendAt hiRecord [0x68, 0x69] 16 0xD0 [yes]).tx.idx.toNat =
      (sendAt hiRecord [0x68, 0x69] 16 0xD0 [yes]).tx.n.toNat + 3 ∧
    (stopError.stop = true ∧ stopError.err = true) ∧ (stopShort.stop = true ∧ stopShort.err = false) ∧
    (notYet.stop = false ∧ notYet.ready = false) :=
  ⟨rfl, witness_txInv 16 (by decide) _ _, rfl, by decide, ⟨rfl, rfl⟩, ⟨rfl, rfl⟩, rfl, rfl⟩

/-- A finished write whose result is awaited. -/
def writeDone (ready : Bool) : State :=
  (State.reset.setTx ⟨.done, statRecord, 3, 7, 0x8A, .ok, ⟨0⟩⟩).setProducer ⟨false, statRecord, ready, []⟩

theorem witness_WriteResultIsTakenOrWaits :
    (writeDone true).tx.phase = .done ∧ (writeDone true).producer.wdReady = true ∧
    (writeDone false).producer.wdReady = false ∧ (sendAt statRecord [] 0 0 []).tx.phase = .send ∧
    (sendAt statRecord [] 0 0 []).line.txAnswers = [] ∧ State.reset.tx.phase = .idle ∧
    State.reset.producer.wrReq = false := by decide

theorem witness_WriteFrameTouchesOnlyItsOwnState :
    exec .writeFrame (sendAt statRecord [] 6 0x8A [yes]) = .next
      ((State.reset.setTx ⟨.done, statRecord, 3, 7, 0x8A, .ok, ⟨0⟩⟩).setLine ⟨[], [], [0x75]⟩) := rfl

theorem witness_WriteFrameKeepsItsRunningSum :
    TxInv (sendAt hiRecord [0x68, 0x69] 15 0x67 [yes]) ∧ TxSum (sendAt hiRecord [0x68, 0x69] 15 0x67 [yes]) ∧
    exec .writeFrame (sendAt hiRecord [0x68, 0x69] 15 0x67 [yes]) = .next
      ((sendAt hiRecord [0x68, 0x69] 16 0xD0 []).setLine ⟨[], [], [0x69]⟩) :=
  ⟨witness_txInv 15 (by decide) _ _, fun _ => by decide, rfl⟩

/-- An idle transmitter asked to send V-E3, with the answers of a transport that answers `(w, e)` and one left over. -/
def askedStat (w : Nat) (e : Option Config.TErr) : State := askedFor statRecord [] (answersFor 7 w e ++ [yes])

/-- A short write of 2 bytes, a complete one, an error with no byte and with the last byte of all. -/
theorem witness_WriteFrameTurnsComputeTheReference :
    ∀ x ∈ ([(2, none), (7, none), (0, some ⟨9⟩), (7, some ⟨9⟩)] : List (Nat × Option Config.TErr)),
      (askedStat x.1 x.2).tx.phase = .idle ∧ (askedStat x.1 x.2).producer.wrReq = true ∧
      (encodeFrame (frameOf (askedStat x.1 x.2).producer.wrRecord (askedStat x.1 x.2).txbuf)).length = 3 ∧
      x.1 ≤ 3 + 4 ∧
      (askedStat x.1 x.2).line.txAnswers = (if 65535 < 3 then [] else answersFor (3 + 4) x.1 x.2) ++ [yes] := by
  decide

/-- A Frame of 65536 bytes (V-W6): the transport is not asked. -/
theorem witness_WriteFrameTurnsComputeTheReference_overRange :
    (askedFor ⟨0, 1, 0, 0, 0, 0, 0, 65535⟩ [] [yes]).tx.phase = .idle ∧
    (askedFor ⟨0, 1, 0, 0, 0, 0, 0, 65535⟩ [] [yes]).producer.wrReq = true ∧
    65535 < (encodeFrame (frameOf ⟨0, 1, 0, 0, 0, 0, 0, 65535⟩ [])).length ∧
    (askedFor ⟨0, 1, 0, 0, 0, 0, 0, 65535⟩ [] [yes]).line.txAnswers = [] ++ [yes] := by
  refine ⟨rfl, rfl, ?_, rfl⟩
  simp [frameOf, encodeFrame, encodeGeneric, pack, partBytes, txBytes]

theorem witness_OnlyDiscardsEmitEvents :
    step ((csumAt [] (items [0x00])).setAgenda [.op (.port .receive)]) = .next
      (((csumAt [] []).setEvents [.checksumMismatch]).setRx ⟨.hunt, 0, 0, 0, 0, .ok, ⟨0⟩⟩) := rfl

/-- A function that returns a result, and a turn that emits an event. -/
theorem witness_NoOperationReadsEventsOrResults :
    exec (.enc16 256) State.reset = .next (State.reset.setFnOut (some (.bytes [1, 0]))) ∧
    exec .readFrame (csumAt [] (items [0x00])) = .next
      (((csumAt [] []).setEvents [.checksumMismatch]).setRx ⟨.hunt, 0, 0, 0, 0, .ok, ⟨0⟩⟩) := ⟨rfl, rfl⟩

theorem witness_SequencersCommute :
    exec .readFrame (State.reset.setConsumer ⟨true, false, []⟩) =
      .next ((State.reset.setConsumer ⟨true, false, []⟩).rxGoto .hunt) ∧
    exec .writeFrame (State.reset.setConsumer ⟨true, false, []⟩) =
      .next (State.reset.setConsumer ⟨true, false, []⟩) := ⟨rfl, rfl⟩

theorem witness_EveryStepKeepsBlockInv :
    BlockInv State.reset ∧ step (State.reset.setAgenda [.env (.rdReq true)]) =
      .next (State.reset.setConsumer ⟨true, false, []⟩) := ⟨⟨trivial, trivial, rfl, rfl⟩, rfl⟩

theorem witness_EveryOperationCompletes : BlockInv (sendAt hiRecord [0x68, 0x69] 16 0xD0 [yes]) :=
  ⟨trivial, witness_txInv 16 (by decide) _ _, rfl, by decide⟩

theorem witness_MemoriesThatReadAlikeAreEqual :
    Memory.wf [(0, 7), (65534, 9)] = true ∧ (∀ a, Memory.byteAt [(0, 7)] a = Memory.byteAt [(0, 7)] a) :=
  ⟨by decide, fun _ => rfl⟩

end Sys2Proof.Tests
end

section
/-!
PROOFS. ByteCodec (spec 40_bytecodec.md): CHECKSUM (R70) and PACK (R74).
-/

namespace Sys2Proof.Machine

/-! ### CHECKSUM -/

theorem exec_checksum (d : List Byte) (s : State) :
    exec (.checksum d) s = .next (s.setFnOut (some (.byte (checksum d)))) := rfl

/-- The byte sum is the fold modulo 256 on naturals: `BitVec.toNat` carries one fold step to the other. -/
theorem sum8_toNat (d : List Byte) : (sum8 d).toNat = d.foldl (fun a b => (a + b.toNat) % 256) 0 :=
  (List.foldl_hom BitVec.toNat fun a b => (BitVec.toNat_add a b).symm).symm

theorem sum8_perm {d d' : List Byte} (h : d.Perm d') : sum8 d' = sum8 d :=
  (h.foldl_eq' (fun a _ b _ s => add_right_comm s a b) 0).symm

theorem checksum_perm {d d' : List Byte} (h : d.Perm d') : checksum d' = checksum d :=
  congrArg (Config.csumBase - ·) (sum8_perm h)

/-- Subtraction from `0xFF` does not borrow, so it is the subtraction of naturals. -/
theorem csumBase_sub (x : Byte) : Config.csumBase - x = BitVec.ofNat 8 ((0xFF - x.toNat) % 256) := by
  bv_omega

theorem checksum_eq_ofNat (d : List Byte) :
    checksum d = BitVec.ofNat 8 ((0xFF - d.foldl (fun a b => (a + b.toNat) % 256) 0) % 256) := by
  rw [checksum, csumBase_sub, sum8_toNat]

/-- Settles O1: the byte sum is the fold on naturals, and a permutation of the data has the same sum. -/
theorem checksumSubtractsWrappedSumFromFF : Obligations.ChecksumSubtractsWrappedSumFromFF := by
  refine fun d s => ⟨?_, fun d' h => ?_⟩
  · rw [exec_checksum, checksum_eq_ofNat]
  · rw [exec_checksum, exec_checksum, checksum_perm h]

/-! ### PACK -/

theorem exec_pack (ps : List Part) (s : State) :
    exec (.pack ps) s = .next (s.setFnOut (some (.bytes (pack ps)))) := rfl

@[simp] theorem pack_append (ps qs : List Part) : pack (ps ++ qs) = pack ps ++ pack qs :=
  List.flatMap_append

theorem pack_length (ps : List Part) : (pack ps).length = (ps.map fun p => (partBytes p).length).sum :=
  List.length_flatMap

/-- Settles O5 by PACK's equation for each kind of part; the length is that of what each part contributes. -/
theorem packConcatenatesPartsInOrder : Obligations.PackConcatenatesPartsInOrder := by
  refine ⟨fun s => ?empty, fun b ps s => ?byte, fun bs ps s => ?bytes, pack_append, fun ps => ?length⟩
  case empty => rw [exec_pack, pack_nil]
  case byte => rw [exec_pack, pack_byte]
  case bytes => rw [exec_pack, pack_bytes]
  case length =>
    rw [pack_length]
    congr 2
    funext p
    cases p <;> rfl

end Sys2Proof.Machine
end

section
/-!
PROOFS. FrameModel, DECODE and its arms (spec 41_framemodel_decode.md): R80 to R82, R84, R85.
-/

namespace Sys2Proof.Machine

/-! ### What exec answers for DECODE and its arms -/

theorem exec_decode (d : List Byte) (s : State) :
    exec (.decode d) s = .next (s.setFnOut (some (.decoded (decodeFrame d)))) := rfl

theorem exec_decTxReq (rest : List Byte) (s : State) :
    exec (.decTxReq rest) s = .next (s.setFnOut (some (.decoded (decodeTxReq (0x00 :: rest))))) := rfl

theorem exec_decTxStat (rest : List Byte) (s : State) :
    exec (.decTxStat rest) s = .next (s.setFnOut (some (.decoded (decodeTxStat (0x89 :: rest))))) := rfl

theorem exec_decRxInd (rest : List Byte) (s : State) :
    exec (.decRxInd rest) s = .next (s.setFnOut (some (.decoded (decodeRxInd (0x80 :: rest))))) := rfl

theorem exec_decGeneric (tag : Byte) (raw : List Byte) (s : State) :
    exec (.decGeneric tag raw) s = .next (s.setFnOut (some (.decoded (.ok (.generic tag raw))))) := rfl

/-! ### DEC.GENERIC -/

theorem decodeTxReq_ne_generic (d : List Byte) (tag : Byte) (raw : List Byte) :
    decodeTxReq d ≠ .ok (.generic tag raw) := by
  obtain h | h := Nat.lt_or_ge d.length 11
  · simp [decodeTxReq_short h]
  · simp [decodeTxReq_long h]

theorem decodeTxStat_ne_generic (d : List Byte) (tag : Byte) (raw : List Byte) :
    decodeTxStat d ≠ .ok (.generic tag raw) := by
  obtain h | h := Nat.lt_or_ge d.length 3
  · simp [decodeTxStat_short h]
  · simp [decodeTxStat_long h]

theorem decodeRxInd_ne_generic (d : List Byte) (tag : Byte) (raw : List Byte) :
    decodeRxInd d ≠ .ok (.generic tag raw) := by
  obtain h | h := Nat.lt_or_ge d.length 11
  · simp [decodeRxInd_short h]
  · simp [decodeRxInd_long h]

/-- Only the catch-all arm builds a Generic, and only an unrecognised tag reaches it (R57, R85). -/
theorem eq_cons_of_decodeFrame_generic {d : List Byte} {tag : Byte} {raw : List Byte}
    (h : decodeFrame d = .ok (.generic tag raw)) :
    d = tag :: raw ∧ tag ≠ 0x00 ∧ tag ≠ 0x89 ∧ tag ≠ 0x80 := by
  cases d with
  | nil => cases h
  | cons t rest =>
    obtain rfl | rfl | rfl | ⟨h0, h1, h2⟩ := tag_cases t
    · exact absurd h (decodeTxReq_ne_generic _ tag raw)
    · exact absurd h (decodeTxStat_ne_generic _ tag raw)
    · exact absurd h (decodeRxInd_ne_generic _ tag raw)
    · rw [decodeFrame_generic rest h0 h1 h2] at h
      cases h
      exact ⟨rfl, h0, h1, h2⟩

/-- Settles O11: of DECODE's arms only the catch-all answers a Generic, and it answers one for every other tag. -/
theorem decGenericKeepsEveryByte : Obligations.DecGenericKeepsEveryByte := by
  refine ⟨exec_decGeneric, fun d tag raw => ⟨eq_cons_of_decodeFrame_generic, ?_⟩⟩
  rintro ⟨rfl, h0, h1, h2⟩
  exact decodeFrame_generic raw h0 h1 h2

/-! ### DECODE -/

theorem decodeFrame_nil : decodeFrame [] = .malformed := rfl

/-- Settles O7 by DECODE's equation for each tag; the tests are exact, so another tag reaches DEC.GENERIC. -/
theorem decodeSelectsArmByTag : Obligations.DecodeSelectsArmByTag := by
  refine fun s => ⟨?empty, fun rest => ?txReq, fun rest => ?txStat, fun rest => ?rxInd,
    fun tag rest h0 h1 h2 => ?generic, fun d => ⟨decodeFrame d, exec_decode d s⟩⟩
  case empty => rw [exec_decode, decodeFrame_nil]
  case txReq => rw [exec_decode, exec_decTxReq, decodeFrame_txReq]
  case txStat => rw [exec_decode, exec_decTxStat, decodeFrame_txStat]
  case rxInd => rw [exec_decode, exec_decRxInd, decodeFrame_rxInd]
  case generic => rw [exec_decode, exec_decGeneric, decodeFrame_generic rest h0 h1 h2]

/-! ### DEC.TXREQ and DEC.RXIND -/

/-- The indices of R82 on frame data whose first eleven bytes are given. -/
theorem decodeTxReq_cons (tag id d0 d1 d2 d3 d4 d5 d6 d7 options : Byte) (payload : List Byte) :
    decodeTxReq (tag :: id :: d0 :: d1 :: d2 :: d3 :: d4 :: d5 :: d6 :: d7 :: options :: payload) =
      .ok (.txRequest id ⟨d0, d1, d2, d3, d4, d5, d6, d7⟩ options payload) :=
  decodeTxReq_long (Nat.le_add_left 11 payload.length)

/-- The indices of R84 on frame data whose first eleven bytes are given. -/
theorem decodeRxInd_cons (tag a0 a1 a2 a3 a4 a5 a6 a7 rssi options : Byte) (payload : List Byte) :
    decodeRxInd (tag :: a0 :: a1 :: a2 :: a3 :: a4 :: a5 :: a6 :: a7 :: rssi :: options :: payload) =
      .ok (.rxIndicate ⟨a0, a1, a2, a3, a4, a5, a6, a7⟩ rssi options payload) :=
  decodeRxInd_long (Nat.le_add_left 11 payload.length)

/-- Settles O8: below 11 bytes the arm is malformed; from 11 on it reads each field at its index. -/
theorem decTxReqReadsFieldsByIndex : Obligations.DecTxReqReadsFieldsByIndex := by
  refine ⟨fun rest s h => ?short, ?cons, fun rest s h => ?long⟩
  case short => rw [exec_decTxReq, decodeTxReq_short h]
  case cons =>
    intros
    rw [exec_decTxReq, decodeTxReq_cons]
  case long => rw [exec_decTxReq, decodeTxReq_long h]; rfl

/-- Settles O10: below 11 bytes the arm is malformed; from 11 on it reads each field at its index. -/
theorem decRxIndReadsFieldsByIndex : Obligations.DecRxIndReadsFieldsByIndex := by
  refine ⟨fun rest s h => ?short, ?cons⟩
  case short => rw [exec_decRxInd, decodeRxInd_short h]
  case cons =>
    intros
    rw [exec_decRxInd, decodeRxInd_cons]

end Sys2Proof.Machine
end

section
/-!
PROOFS. FrameModel, ENCODE and its arms (spec 42_framemodel_encode.md): R90 to R94.
-/

namespace Sys2Proof.Machine

theorem exec_encode (f : Frame) (s : State) :
    exec (.encode f) s = .next (s.setFnOut (some (.bytes (encodeFrame f)))) := rfl

/-! ### The bytes of each arm -/

theorem encodeTxReq_eq (id : Byte) (dest : Addr) (options : Byte) (payload : List Byte) :
    encodeTxReq id dest options payload = [0x00, id] ++ addrBytes dest ++ [options] ++ payload := by
  simp [encodeTxReq, Config.tagTxReq]

theorem encodeGeneric_eq (tag : Byte) (raw : List Byte) : encodeGeneric tag raw = tag :: raw := by
  simp [encodeGeneric]

theorem encodeTxStat_eq (id status : Byte) : encodeTxStat id status = [0x89, id, status] := rfl

theorem encodeRxInd_eq (source : Addr) (rssi options : Byte) (payload : List Byte) :
    encodeRxInd source rssi options payload =
      [0x80] ++ addrBytes source ++ [rssi, options] ++ payload := by
  simp [encodeRxInd, Config.tagRxInd]

/-! ### ENCODE -/

/-- Every arm packs its tag first, so no result is empty (R90). -/
theorem encodeFrame_length_pos (f : Frame) : 1 ≤ (encodeFrame f).length := by
  cases f with
  | txRequest id dest options payload => simp [encodeFrame, encodeTxReq_eq]
  | generic tag raw => simp [encodeFrame, encodeGeneric_eq]
  | txStatus id status => simp [encodeFrame, encodeTxStat_eq]
  | rxIndicate source rssi options payload => simp [encodeFrame, encodeRxInd_eq]

/-- Settles O13 by the bytes of each arm, with the address split into its eight bytes in index order. -/
theorem encodeWritesFieldsInWireOrder : Obligations.EncodeWritesFieldsInWireOrder := by
  refine fun s => ⟨?txRequest, ?txStatus, ?rxIndicate, fun f => ⟨exec_encode f s, encodeFrame_length_pos f⟩⟩
  case txRequest =>
    intros
    rw [exec_encode, encodeFrame, encodeTxReq_eq]
    rfl
  case txStatus =>
    intros
    rw [exec_encode, encodeFrame, encodeTxStat_eq]
  case rxIndicate =>
    intros
    rw [exec_encode, encodeFrame, encodeRxInd_eq]
    rfl

end Sys2Proof.Machine
end

section
/-!
PROOFS. READFRAME in HUNT, LEN_HI and DATA (spec 43_framestream_rx.md): R101, R102, R104.
-/

namespace Sys2Proof.Machine

/-! ### A byte at hand, in a phase that takes items -/

/-- In HUNT to CSUM the byte at hand is gone from the transport, whatever the phase then does with it (R20, R37). -/
theorem exec_readFrame_byte {s : State} {b : Byte} {rest : List Item} (hr : rxReady s = true)
    (hi : s.line.rxItems = .byte b :: rest) : exec .readFrame s = rxByteTaken b (s.setItems rest) := by
  show execReadFrame s = _
  rw [execReadFrame_ready hr, rxTake, hi]

theorem exec_readFrame_hunt {s : State} {b : Byte} {rest : List Item} (hp : s.rx.phase = .hunt)
    (hi : s.line.rxItems = .byte b :: rest) : exec .readFrame s = .next (rxHunt b (s.setItems rest)) := by
  rw [exec_readFrame_byte (by simp [rxReady, hp]) hi, rxByteTaken, setItems_eq, setLine_rx, hp]

theorem exec_readFrame_lenHi {s : State} {b : Byte} {rest : List Item} (hp : s.rx.phase = .lenHi)
    (hi : s.line.rxItems = .byte b :: rest) : exec .readFrame s = .next (rxLenHi b (s.setItems rest)) := by
  rw [exec_readFrame_byte (by simp [rxReady, hp]) hi, rxByteTaken, setItems_eq, setLine_rx, hp]

theorem exec_readFrame_data {s : State} {b : Byte} {rest : List Item} (hp : s.rx.phase = .data)
    (hi : s.line.rxItems = .byte b :: rest) : exec .readFrame s = rxData b (s.setItems rest) := by
  rw [exec_readFrame_byte (by simp [rxReady, hp]) hi, rxByteTaken, setItems_eq, setLine_rx, hp]

/-! ### HUNT and LEN_HI -/

theorem rxHunt_delim (s : State) : rxHunt 0x7E s = s.setRx { s.rx with phase := .lenHi } := rfl

/-- A dropped byte writes no register: the phase was HUNT and stays HUNT (R101). -/
theorem rxHunt_ne_delim {s : State} {b : Byte} (hp : s.rx.phase = .hunt) (hb : b ≠ 0x7E) : rxHunt b s = s := by
  have stays : ({ s.rx with phase := .hunt } : RxRegs) = s.rx := by rw [← hp]
  rw [rxHunt, if_neg hb, rxGoto_eq, stays, setRx_self]

/-- Settles O25: the delimiter sends the sequencer to LEN_HI, any other byte leaves the state it was taken from. -/
theorem huntDropsBytesUntilTheDelimiter : Obligations.HuntDropsBytesUntilTheDelimiter := by
  refine fun s b rest hp hi => ⟨fun hb => ?delim, fun hb => ?dropped⟩
  case delim => subst hb; rw [exec_readFrame_hunt hp hi, rxHunt_delim, setItems_eq, setLine_rx]
  case dropped => rw [exec_readFrame_hunt hp hi, rxHunt_ne_delim (s := s.setItems rest) hp hb, setItems_eq]

/-- Settles O26: RX.LEN_HI does not look at the byte it keeps. -/
theorem firstLengthByteIsKept : Obligations.FirstLengthByteIsKept := by
  intro s b rest hp hi
  rw [exec_readFrame_lenHi hp hi, rxLenHi, setItems_eq, setLine_rx]

/-! ### DATA -/

/-- A count below a 16-bit length is an offset of `rxbuf` (R18). -/
theorem cnt_lt_bufSize {cnt len : Half} (h : cnt.toNat < len.toNat) : cnt.toNat < Config.bufSize := by
  have := len.isLt
  show cnt.toNat < 65535
  omega

/-- A count below the length does not wrap when it goes on. -/
theorem cnt_succ_toNat {cnt len : Half} (h : cnt.toNat < len.toNat) : (cnt + 1).toNat = cnt.toNat + 1 := by
  bv_omega

/-- The count reaches the length as a word exactly when it does as a number. -/
theorem cnt_succ_eq_len_iff {cnt len : Half} (h : cnt.toNat < len.toNat) :
    cnt + 1 = len ↔ cnt.toNat + 1 = len.toNat := by
  rw [← BitVec.toNat_inj, cnt_succ_toNat h]

/-- Settles O28: the turn is RX.DATA's whole next state; the store is read back by the laws of memory, and the new
count is compared without wrap-around. -/
theorem dataByteIsStoredAndSummed : Obligations.DataByteIsStoredAndSummed := by
  intro s b rest hp hi hcnt
  refine ⟨_, (exec_readFrame_data hp hi).trans (rxData_setItems b s rest (cnt_lt_bufSize hcnt)), ?stored, ?others,
    ?sum, ?cnt, ?phase, rfl, rfl, rfl, rfl, rfl, rfl⟩
  case stored => exact Memory.byteAt_store_same s.rxbuf _ b
  case others => exact fun a ha => Memory.byteAt_store_other s.rxbuf b ha
  case sum => exact BitVec.toNat_add s.rx.sum b
  case cnt => exact cnt_succ_toNat hcnt
  case phase => exact if_congr (cnt_succ_eq_len_iff hcnt) rfl rfl

end Sys2Proof.Machine
end

section
/-!
PROOFS. WRITEFRAME in SEND (spec 44_framestream_tx.md): R123's bytes exist, and R124.
-/

namespace Sys2Proof.Machine

/-! ### Every index below the envelope's length has its byte (R121, R123) -/

/-- The 17-bit addition does not wrap: the variable part is at most 65535 bytes (R75(e)). -/
theorem encodedLen_toNat (r : PortRecord) : (encodedLen r).toNat =
    if r.kind = 0 then 1 + r.plen.toNat else if r.kind = 2 then 3 else 11 + r.plen.toNat := by
  unfold encodedLen
  split_ifs
  · bv_omega
  · rfl
  · bv_omega

@[simp] theorem variableByte_isSome (r : PortRecord) (m : Memory) (k : Nat) :
    (variableByte r m k).isSome = decide (k < r.plen.toNat) := by
  unfold variableByte
  split_ifs with h <;> simp [h]

/-- Kind by kind: an index below the encoded length is a fixed field or falls in the variable part. -/
theorem frameByte_isSome {r : PortRecord} (m : Memory) {j : Nat} (h : j < (encodedLen r).toNat) :
    (frameByte r m j).isSome = true := by
  rw [encodedLen_toNat] at h
  unfold frameByte
  by_cases h0 : r.kind = 0
  · simp only [h0, if_true] at h ⊢
    split_ifs <;> simp
    omega
  by_cases h2 : r.kind = 2
  · simp only [h2, BitVec.reduceEq, if_false, if_true] at h ⊢
    split_ifs <;> simp
    omega
  -- a TxRequest and an RxIndicate both have eleven bytes of fixed fields
  by_cases h1 : r.kind = 1
  all_goals
    simp only [h0, h2, h1, BitVec.reduceEq, if_false, if_true] at h ⊢
    split_ifs <;> simp
    omega

/-- R17's bound on `tx.idx` keeps the offered byte inside the envelope (R123). -/
theorem envelopeByte_isSome {t : TxRegs} (m : Memory) {i : Nat} (hn : t.n = encodedLen t.frame)
    (hi : i < t.n.toNat + 4) : (envelopeByte t m i).isSome = true := by
  unfold envelopeByte
  split_ifs
  · rfl
  · rfl
  · rfl
  · exact frameByte_isSome m (by rw [← hn]; omega)
  · rfl
  · omega

/-! ### One answer of the transport -/

/-- In SEND a byte is offered whenever R17 holds. -/
theorem exists_txData_of_txInv {s : State} (hp : s.tx.phase = .send) (hinv : TxInv s) : ∃ b, txData s = some b := by
  rw [TxInv, hp] at hinv
  obtain ⟨hn, -, -, hi⟩ := hinv
  rw [txData, if_pos hp]
  exact Option.isSome_iff_exists.1 (envelopeByte_isSome s.txbuf hn hi)

theorem exec_writeFrame_ready {s : State} {a : TxAnswer} {rest : List TxAnswer} {b : Byte} (hp : s.tx.phase = .send)
    (ha : s.line.txAnswers = a :: rest) (hb : txData s = some b) (hr : a.ready = true) :
    exec .writeFrame s = .next (txEnd a (txAccepted b (s.setAnswers rest))) := by
  rw [txData, if_pos hp] at hb
  show execWriteFrame s = _
  simp only [execWriteFrame, hp, txSend, ha, txAnswered, setAnswers_eq, setLine_tx, setLine_txbuf, hb, hr, if_true]

/-- Ending a write touches phase, status and cause only (R125, R126). -/
theorem txEnd_eq_setTx (a : TxAnswer) (s : State) :
    ∃ p st c, txEnd a s = s.setTx { s.tx with phase := p, status := st, cause := c } := by
  obtain ⟨-, -, h⟩ | ⟨-, -, h⟩ | ⟨-, -, h⟩ := txEnd_cases a s
  · exact ⟨_, _, _, h⟩
  · exact ⟨_, _, _, h⟩
  · exact ⟨_, _, _, h⟩

/-- Without a stop, and before the last byte, the write goes on (R124). -/
theorem txEnd_goesOn {a : TxAnswer} {s : State} (hs : a.stop = false) (hi : s.tx.idx.toNat ≠ s.tx.n.toNat + 4) :
    txEnd a s = s := by
  simp [txEnd, hs, hi]

/-- The index stays far below 2^17 in SEND (R17), so it does not wrap when it goes on. -/
theorem idx_succ_toNat {s : State} (hp : s.tx.phase = .send) (hinv : TxInv s) :
    (s.tx.idx + 1).toNat = s.tx.idx.toNat + 1 := by
  rw [TxInv, hp] at hinv
  obtain ⟨-, -, hmax, hi⟩ := hinv
  bv_omega

/-- Settles O44: the offered byte exists by R17; accepting it fixes stream, index and sum, and the end of the write
touches only phase, status and cause. -/
theorem acceptedByteJoinsTheStream : Obligations.AcceptedByteJoinsTheStream := by
  intro s a rest hp hinv ha hr
  obtain ⟨b, hb⟩ := exists_txData_of_txInv hp hinv
  have hidx := idx_succ_toNat hp hinv
  have hexec := exec_writeFrame_ready hp ha hb hr
  rw [txAccepted_setAnswers] at hexec
  obtain ⟨p, st, c, hend⟩ := txEnd_eq_setTx a _
  refine ⟨_, b, hexec, hb, ?stream, ?idx, ?sum, ?goesOn, ?frame, ?n, ?others⟩
  case stream => rw [hend]; rfl
  case idx => rw [hend]; exact hidx
  case sum => rw [hend]; exact (apply_ite BitVec.toNat _ _ _).trans (by rw [BitVec.toNat_add])
  case goesOn =>
    intro hs hlast
    have hmore : (s.tx.idx + 1).toNat ≠ s.tx.n.toNat + 4 := by omega
    rw [txEnd_goesOn hs hmore]
    exact ⟨hp, rfl⟩
  case frame => rw [hend]; rfl
  case n => rw [hend]; rfl
  case others => rw [hend]; rfl

end Sys2Proof.Machine
end

section
/-!
PROOFS. ByteCodec (spec 40_bytecodec.md), the rest: VERIFY (R71), ENC16 (R72), DEC16 (R73), the laws R76.
-/

namespace Sys2Proof.Machine

/-! ### The byte sum as a sum -/

theorem sum8_eq_sum (d : List Byte) : sum8 d = d.sum := by
  induction d with
  | nil => rfl
  | cons b d ih => rw [sum8_cons, List.sum_cons, ih]

theorem sum8_eq_ofNat (d : List Byte) : sum8 d = BitVec.ofNat 8 (d.map BitVec.toNat).sum := by
  induction d with
  | nil => rfl
  | cons b d ih => simp [ih, BitVec.ofNat_add]

/-- R70's inference: subtracting from `0xFF` is complementing. -/
theorem checksum_eq_not (d : List Byte) : checksum d = ~~~ BitVec.ofNat 8 (d.map BitVec.toNat).sum := by
  rw [checksum, sum8_eq_ofNat]
  bv_omega

theorem verify_iff {d : List Byte} {c : Byte} : verify d c = true ↔ checksum d = c := beq_iff_eq

theorem verify_eq_false_iff {d : List Byte} {c : Byte} : verify d c = false ↔ checksum d ≠ c := beq_eq_false_iff_ne

/-- Two data verify with the same byte exactly when their sums agree. -/
theorem checksum_inj {d e : List Byte} : checksum d = checksum e ↔ sum8 d = sum8 e := sub_right_inj

/-- The form of VERIFY for a running sum (R71, D31) is VERIFY. -/
theorem verifySum_sum8 (d : List Byte) (c : Byte) : verifySum (sum8 d) c = verify d c := by
  rw [Bool.eq_iff_iff, verify_iff, verifySum, beq_iff_eq, checksum, sub_eq_iff_eq_add', eq_comm]

/-! ### VERIFY -/

theorem exec_verify (d : List Byte) (c : Byte) (s : State) :
    exec (.verify d c) s = .next (s.setFnOut (some (.bool (verify d c)))) := rfl

theorem exec_verify_eq_true_iff {d : List Byte} {c : Byte} {s : State} :
    exec (.verify d c) s = .next (s.setFnOut (some (.bool true))) ↔ checksum d = c := by
  rw [exec_verify, ← verify_iff]
  constructor
  · intro h
    have port := congrArg State.fnOut (Host.Outcome.next.inj h)
    simpa using port
  · intro h
    rw [h]

/-- R71's form with the sum, on naturals. -/
theorem checksum_eq_iff_sum_mod {d : List Byte} {c : Byte} :
    checksum d = c ↔ ((d.map BitVec.toNat).sum + c.toNat) % 256 = 0xFF := by
  rw [checksum_eq_not]
  generalize (d.map BitVec.toNat).sum = n
  bv_omega

theorem verify_eq_decide {d : List Byte} {c : Byte} {p : Prop} [Decidable p] (h : checksum d = c ↔ p) :
    verify d c = decide p := by
  rw [Bool.eq_iff_iff, verify_iff, decide_eq_true_iff, h]

/-- Settles O2: VERIFY is the comparison with CHECKSUM, so the checksum and no other byte verifies. -/
theorem verifyAcceptsExactlyTheChecksum : Obligations.VerifyAcceptsExactlyTheChecksum := by
  refine fun d c s => ⟨?compares, ?sum, exec_verify_eq_true_iff.2 rfl, checksum d, exec_verify_eq_true_iff.2 rfl,
    fun c' h => (exec_verify_eq_true_iff.1 h).symm⟩
  case compares => rw [exec_verify, verify_eq_decide Iff.rfl]
  case sum => rw [exec_verify, verify_eq_decide checksum_eq_iff_sum_mod]

/-! ### What corruption VERIFY detects (R76) -/

/-- Replacing a byte moves the sum by the difference of the two bytes. -/
theorem sum8_set_ne {d : List Byte} {i : Nat} {b : Byte} (h : i < d.length) (hb : b ≠ d[i]) :
    sum8 (d.set i b) ≠ sum8 d := by
  rw [sum8_eq_sum, sum8_eq_sum, List.sum_set' d i b, dif_pos h]
  rw [add_ne_left, Ne, neg_add_eq_zero]
  exact hb.symm

/-- Settles O6: equal checksums are equal sums; one byte replaced changes the sum, a permutation does not. -/
theorem singleCorruptionAlwaysFailsVerify : Obligations.SingleCorruptionAlwaysFailsVerify := by
  refine ⟨checksum_eq_not, fun d c hv => ⟨fun i b hi hb => ?replaced, fun c' hc => ?otherByte, fun d' hp => ?permuted⟩,
    [0x01, 0x02], [0x00, 0x03], 0xFC, ?cancels⟩
  case replaced =>
    rw [verify_eq_false_iff, ← verify_iff.1 hv]
    exact fun h => sum8_set_ne hi hb (checksum_inj.1 h)
  case otherByte =>
    rw [verify_eq_false_iff, verify_iff.1 hv]
    exact hc.symm
  case permuted => rw [verify_iff, checksum_perm hp, verify_iff.1 hv]
  case cancels => decide

/-! ### ENC16 and DEC16 -/

theorem exec_enc16 (n : Nat) (s : State) : exec (.enc16 n) s = .next (s.setFnOut (some (.bytes (enc16 n)))) := rfl

theorem exec_dec16 (b0 b1 : Byte) (s : State) :
    exec (.dec16 b0 b1) s = .next (s.setFnOut (some (.int (dec16 b0 b1)))) := rfl

theorem enc16_eq_extract (n : Nat) :
    enc16 n = [(BitVec.ofNat 16 n).extractLsb' 8 8, (BitVec.ofNat 16 n).extractLsb' 0 8] := by
  simp only [enc16, List.cons.injEq, and_true]
  constructor
  · apply BitVec.eq_of_toNat_eq
    simp [Nat.shiftRight_eq_div_pow]
    omega
  · apply BitVec.eq_of_toNat_eq
    simp

theorem ofNat_mod_65536 (n : Nat) : BitVec.ofNat 16 (n % 65536) = BitVec.ofNat 16 n := by
  bv_omega

theorem enc16_mod (n : Nat) : enc16 (n % 65536) = enc16 n := by
  rw [enc16_eq_extract, ofNat_mod_65536, ← enc16_eq_extract]

/-- Settles O3: the two bytes are cut from the number as a 16-bit word, so reducing it first changes nothing. -/
theorem enc16PutsMostSignificantByteFirst : Obligations.Enc16PutsMostSignificantByteFirst := by
  refine fun n s => ⟨?_, ?_⟩
  · rw [exec_enc16, enc16_eq_extract]
  · rw [exec_enc16, exec_enc16, enc16_mod]

theorem dec16_eq_ofNat (b0 b1 : Byte) : dec16 b0 b1 = BitVec.ofNat 16 (256 * b0.toNat + b1.toNat) := by
  rw [← dec16_toNat, BitVec.ofNat_toNat, BitVec.setWidth_eq]

theorem dec16_eq_append (b0 b1 : Byte) : dec16 b0 b1 = b0 ++ b1 := by
  apply BitVec.eq_of_toNat_eq
  rw [dec16_toNat, BitVec.toNat_append, ← Nat.shiftLeft_add_eq_or_of_lt b1.isLt, Nat.shiftLeft_eq]
  omega

theorem enc16_dec16 (b0 b1 : Byte) : enc16 (dec16 b0 b1).toNat = [b0, b1] := by
  rw [dec16_toNat]
  simp only [enc16, List.cons.injEq, and_true]
  constructor <;> bv_omega

theorem dec16_enc16_toNat {n : Nat} (h : n ≤ 65535) :
    (dec16 (BitVec.ofNat 8 (n / 256)) (BitVec.ofNat 8 n)).toNat = n := by
  rw [dec16_toNat, BitVec.toNat_ofNat, BitVec.toNat_ofNat]
  omega

/-- Settles O4: DEC16 is base 256, and ENC16 gives the two digits. -/
theorem dec16ReadsBigEndianAndInvertsEnc16 : Obligations.Dec16ReadsBigEndianAndInvertsEnc16 := by
  refine ⟨fun b0 b1 s => ⟨?append, ?ofNat, dec16_toNat b0 b1, enc16_dec16 b0 b1⟩,
    fun n h => ⟨_, _, rfl, dec16_enc16_toNat h⟩⟩
  case append => rw [exec_dec16, dec16_eq_append]
  case ofNat => rw [exec_dec16, dec16_eq_ofNat]

end Sys2Proof.Machine
end

section
/-!
PROOFS. Selections (spec 30_encoding.md): R50, R51, R57, R60.
-/

namespace Sys2Proof.Machine

/-! ### An envelope -/

theorem decodeEnvelope_of_length {hi lo : Byte} {data : List Byte} (csum : Byte)
    (h : (dec16 hi lo).toNat = data.length) :
    decodeEnvelope (Config.delim :: hi :: lo :: (data ++ [csum])) = .ok (.frame data csum) := by
  simp [decodeEnvelope, h]

/-- The only bytes read as an envelope are an envelope's (R51, R59). -/
theorem eq_envelope_of_decodeEnvelope {bs : List Byte} {i : Instr} (h : decodeEnvelope bs = .ok i) :
    ∃ data csum, i = .frame data csum ∧ data.length ≤ Config.maxLen ∧
      bs = Config.delim :: (enc16 data.length ++ data ++ [csum]) := by
  unfold decodeEnvelope at h
  split at h
  case h_1 b hi lo rest =>
    split at h
    case isFalse => cases h
    case isTrue hb =>
    split at h
    case h_2 csum hdrop =>
      cases h
      have hlen := congrArg List.length hdrop
      rw [List.length_drop, List.length_singleton] at hlen
      have htake : (rest.take (dec16 hi lo).toNat).length = (dec16 hi lo).toNat := by
        rw [List.length_take]; omega
      refine ⟨_, csum, rfl, ?_, ?_⟩
      · rw [htake]; exact Nat.le_of_lt_succ (dec16 hi lo).isLt
      · rw [htake, enc16_dec16, ← hdrop, List.append_assoc, List.take_append_drop, hb]
        rfl
    all_goals cases h
  case h_2 => split at h <;> cases h
  case h_3 => cases h

/-! ### Frame data -/

theorem recognisedTag_eq_false_iff {tag : Byte} :
    recognisedTag tag = false ↔ tag ≠ 0x00 ∧ tag ≠ 0x89 ∧ tag ≠ 0x80 := by
  simp [recognisedTag, Config.tagTxReq, Config.tagTxStat, Config.tagRxInd, and_assoc]

theorem decodeTag_generic {tag : Byte} (raw : List Byte) (h : recognisedTag tag = false) :
    decodeTag (tag :: raw) = .ok (.decGeneric tag raw) := by
  obtain ⟨h0, h1, h2⟩ := recognisedTag_eq_false_iff.1 h
  exact (if_neg h0).trans ((if_neg h1).trans (if_neg h2))

/-- Frame data is read as the DEC arm of its tag, and that arm is written back as the same bytes. -/
theorem wellFormed_encode_of_decodeTag {bs : List Byte} {i : Instr} (h : decodeTag bs = .ok i) :
    wellFormed i = true ∧ encode i = .frameData bs := by
  cases bs with
  | nil => cases h
  | cons tag raw =>
    obtain rfl | rfl | rfl | ht := tag_cases tag
    · cases h; exact ⟨rfl, rfl⟩
    · cases h; exact ⟨rfl, rfl⟩
    · cases h; exact ⟨rfl, rfl⟩
    · have hr := recognisedTag_eq_false_iff.2 ht
      rw [decodeTag_generic raw hr] at h
      cases h
      exact ⟨by simp [wellFormed, hr], rfl⟩

/-! ### A port record: every kind is an operation with all its operands -/

theorem wellFormed_decodeKind (r : PortRecord) : wellFormed (decodeKind r) = true := by
  unfold decodeKind
  split_ifs <;> rfl

/-- Settles O17, constructor by constructor: an envelope by its length, a DEC arm by its tag, the rest by R50's
table. -/
theorem decodeOfEncodeIsTheOperation : Obligations.DecodeOfEncodeIsTheOperation := by
  intro i hwf
  cases i with
  | frame data csum =>
    have hlen : data.length ≤ 65535 := of_decide_eq_true hwf
    exact decodeEnvelope_of_length csum (dec16_enc16_toNat hlen)
  | decGeneric tag raw => exact decodeTag_generic raw (by simpa [wellFormed] using hwf)
  | _ => rfl

/-- Settles O18: each way of reading a selection gives a well-formed operation that is written back as it was read,
and O17 reads that again. -/
theorem selectionHasOneMeaning : Obligations.SelectionHasOneMeaning := by
  intro w i h
  have key : wellFormed i = true ∧ ((∀ r, w ≠ .record r) → encode i = w) := by
    cases w with
    | envelope bs =>
      obtain ⟨data, csum, rfl, hlen, rfl⟩ := eq_envelope_of_decodeEnvelope h
      exact ⟨decide_eq_true hlen, fun _ => rfl⟩
    | frameData bs =>
      obtain ⟨hwf, henc⟩ := wellFormed_encode_of_decodeTag h
      exact ⟨hwf, fun _ => henc⟩
    | record r => cases h; exact ⟨wellFormed_decodeKind r, fun hr => absurd rfl (hr r)⟩
    | wired f => cases h; cases f <;> exact ⟨rfl, fun _ => rfl⟩
    | port p => cases h; cases p <;> exact ⟨rfl, fun _ => rfl⟩
  obtain ⟨hwf, henc⟩ := key
  exact ⟨hwf, henc, decodeOfEncodeIsTheOperation i hwf⟩

/-- Settles O19: the selections and the two table words are read by running the decoder on them. -/
theorem tableWordsDecode : Obligations.TableWordsDecode :=
  ⟨rfl, rfl, rfl, rfl, by decide, by decide⟩

end Sys2Proof.Machine
end

section
/-!
PROOFS. FrameModel (spec 41_framemodel_decode.md, 42_framemodel_encode.md), the rest: DEC.TXSTAT (R83), how DECODE and
ENCODE undo each other (R86, R95, R96), and the ENC arms on the port record (R60, R91 to R94).
-/

namespace Sys2Proof.Machine

/-! ### DEC.TXSTAT -/

/-- Settles O9: below 3 bytes the arm is malformed; from 3 on it reads two bytes and no more. -/
theorem decTxStatReadsTwoBytesIgnoresRest : Obligations.DecTxStatReadsTwoBytesIgnoresRest := by
  refine ⟨fun rest s h => ?short, fun id status ignored s => ?long⟩
  case short => rw [exec_decTxStat, decodeTxStat_short h]
  case long =>
    have hlen : 3 ≤ (0x89 :: id :: status :: ignored).length := Nat.le_add_left 3 ignored.length
    rw [exec_decTxStat, decodeTxStat_long hlen]
    rfl

/-! ### When an arm of DECODE succeeds, and with what -/

theorem decodeTxReq_eq_ok_iff {d : List Byte} {f : Frame} : decodeTxReq d = .ok f ↔
    11 ≤ d.length ∧ f = .txRequest (byteOf d 1) (addrOf d 2) (byteOf d 10) (d.drop 11) := by
  obtain h | h := Nat.lt_or_ge d.length 11
  · simp [decodeTxReq_short h, h]
  · simp [decodeTxReq_long h, h, eq_comm]

theorem decodeTxStat_eq_ok_iff {d : List Byte} {f : Frame} : decodeTxStat d = .ok f ↔
    3 ≤ d.length ∧ f = .txStatus (byteOf d 1) (byteOf d 2) := by
  obtain h | h := Nat.lt_or_ge d.length 3
  · simp [decodeTxStat_short h, h]
  · simp [decodeTxStat_long h, h, eq_comm]

theorem decodeRxInd_eq_ok_iff {d : List Byte} {f : Frame} : decodeRxInd d = .ok f ↔
    11 ≤ d.length ∧ f = .rxIndicate (addrOf d 1) (byteOf d 9) (byteOf d 10) (d.drop 11) := by
  obtain h | h := Nat.lt_or_ge d.length 11
  · simp [decodeRxInd_short h, h]
  · simp [decodeRxInd_long h, h, eq_comm]

/-- R86(a). -/
theorem exists_decodeFrame_eq_ok_iff (d : List Byte) : (∃ f, decodeFrame d = .ok f) ↔
    1 ≤ d.length ∧ (d.head? = some 0x00 → 11 ≤ d.length) ∧ (d.head? = some 0x89 → 3 ≤ d.length) ∧
      (d.head? = some 0x80 → 11 ≤ d.length) := by
  cases d with
  | nil => simp [decodeFrame_nil]
  | cons tag rest =>
    obtain rfl | rfl | rfl | ⟨h0, h1, h2⟩ := tag_cases tag
    · rw [decodeFrame_txReq]
      simp [decodeTxReq_eq_ok_iff]
    · rw [decodeFrame_txStat]
      simp [decodeTxStat_eq_ok_iff]
    · rw [decodeFrame_rxInd]
      simp [decodeRxInd_eq_ok_iff]
    · rw [decodeFrame_generic rest h0 h1 h2]
      simp_all

/-! ### ENCODE after DECODE -/

/-- Reading the first `n` indices one by one is taking the first `n` bytes. -/
theorem map_byteOf_range {d : List Byte} {n : Nat} (h : n ≤ d.length) :
    (List.range n).map (byteOf d) = d.take n := by
  refine List.ext_getElem (by simpa using h) fun i hi hi' => ?_
  have hd : i < d.length := by rw [List.length_take] at hi'; omega
  rw [List.getElem_map, List.getElem_range, List.getElem_take, byteOf, List.getD_eq_getElem _ _ hd]

/-- The fields DEC.TXREQ reads are its first eleven bytes, in index order. -/
theorem encodeFrame_of_decodeTxReq {rest : List Byte} {f : Frame} (h : decodeTxReq (0x00 :: rest) = .ok f) :
    encodeFrame f = 0x00 :: rest := by
  obtain ⟨hlen, rfl⟩ := decodeTxReq_eq_ok_iff.1 h
  rw [encodeFrame, encodeTxReq_eq]
  calc _ = (List.range 11).map (byteOf (0x00 :: rest)) ++ (0x00 :: rest).drop 11 := rfl
    _ = 0x00 :: rest := by rw [map_byteOf_range hlen, List.take_append_drop]

/-- The fields DEC.RXIND reads are its first eleven bytes, in index order. -/
theorem encodeFrame_of_decodeRxInd {rest : List Byte} {f : Frame} (h : decodeRxInd (0x80 :: rest) = .ok f) :
    encodeFrame f = 0x80 :: rest := by
  obtain ⟨hlen, rfl⟩ := decodeRxInd_eq_ok_iff.1 h
  rw [encodeFrame, encodeRxInd_eq]
  calc _ = (List.range 11).map (byteOf (0x80 :: rest)) ++ (0x80 :: rest).drop 11 := rfl
    _ = 0x80 :: rest := by rw [map_byteOf_range hlen, List.take_append_drop]

/-- DEC.TXSTAT keeps three bytes and drops what follows (D16). -/
theorem encodeFrame_of_decodeTxStat {rest : List Byte} {f : Frame} (h : decodeTxStat (0x89 :: rest) = .ok f) :
    encodeFrame f = (0x89 :: rest).take 3 := by
  obtain ⟨hlen, rfl⟩ := decodeTxStat_eq_ok_iff.1 h
  rw [encodeFrame, encodeTxStat_eq, ← map_byteOf_range hlen]
  rfl

/-- ENCODE gives back the bytes DECODE read, but of a TXSTAT only its three fixed bytes. -/
theorem encodeFrame_of_decodeFrame {d : List Byte} {f : Frame} (h : decodeFrame d = .ok f) :
    encodeFrame f = if d.head? = some 0x89 then d.take 3 else d := by
  cases d with
  | nil => cases h
  | cons tag rest =>
    obtain rfl | rfl | rfl | ⟨h0, h1, h2⟩ := tag_cases tag
    · simpa using encodeFrame_of_decodeTxReq h
    · simpa using encodeFrame_of_decodeTxStat h
    · simpa using encodeFrame_of_decodeRxInd h
    · rw [decodeFrame_generic rest h0 h1 h2] at h
      cases h
      rw [encodeFrame, encodeGeneric_eq, List.head?_cons, if_neg fun htag => h1 (Option.some.inj htag)]

/-- Settles O12: the lengths are those of the arms; only a TXSTAT is cut, to its first three bytes. -/
theorem decodeSucceedsExactlyOnLongEnoughData : Obligations.DecodeSucceedsExactlyOnLongEnoughData := by
  refine ⟨exists_decodeFrame_eq_ok_iff, fun d f h => ?_⟩
  rw [encodeFrame_of_decodeFrame h]
  split_ifs with htag
  · rw [List.length_take]
    exact ⟨Nat.min_le_right 3 d.length, fun hne => ⟨htag, by omega⟩⟩
  · exact ⟨le_rfl, fun hne => absurd rfl hne⟩

/-! ### DECODE after ENCODE -/

/-- A Frame of a kind with a tag of its own is decoded from its encoding. -/
theorem decodeFrame_encodeFrame {f : Frame}
    (h : ∀ tag raw, f = .generic tag raw → tag ≠ 0x00 ∧ tag ≠ 0x89 ∧ tag ≠ 0x80) :
    decodeFrame (encodeFrame f) = .ok f := by
  cases f with
  | generic tag raw =>
    obtain ⟨h0, h1, h2⟩ := h tag raw rfl
    rw [encodeFrame, encodeGeneric_eq, decodeFrame_generic raw h0 h1 h2]
  | txRequest id dest options payload =>
    rw [encodeFrame, encodeTxReq_eq]
    exact decodeTxReq_cons _ _ _ _ _ _ _ _ _ _ _ _
  | txStatus id status => rfl
  | rxIndicate source rssi options payload =>
    rw [encodeFrame, encodeRxInd_eq]
    exact decodeRxInd_cons _ _ _ _ _ _ _ _ _ _ _ _

/-- Settles O16: a Generic with a recognised tag is no result of DECODE, and only a long TXSTAT loses bytes. -/
theorem decodeInvertsEncodeExactly : Obligations.DecodeInvertsEncodeExactly := by
  refine ⟨fun f => ⟨?unrecognised, decodeFrame_encodeFrame⟩, fun d f h => ?reencoded⟩
  case unrecognised =>
    rintro h tag raw rfl
    exact (eq_cons_of_decodeFrame_generic h).2
  case reencoded =>
    rw [encodeFrame_of_decodeFrame h]
    split_ifs with htag
    · rw [List.take_eq_self_iff, ← not_lt, and_iff_right htag]
    · exact iff_of_true rfl fun hlong => htag hlong.1

/-! ### The Frame a port record stands for, kind by kind (R60) -/

theorem kind_cases (k : BitVec 2) : k = 0 ∨ k = 1 ∨ k = 2 ∨ k = 3 := by
  revert k
  decide

section
variable {r : PortRecord} (m : Memory)

theorem frameOf_generic (h : r.kind = 0) : frameOf r m = .generic r.tag (txBytes m r.plen.toNat) := by
  simp [frameOf, h]

theorem frameOf_txRequest (h : r.kind = 1) :
    frameOf r m = .txRequest r.id (addrOfPort r.addr) r.options (txBytes m r.plen.toNat) := by
  simp [frameOf, h]

theorem frameOf_txStatus (h : r.kind = 2) : frameOf r m = .txStatus r.id r.status := by
  simp [frameOf, h]

theorem frameOf_rxIndicate (h : r.kind = 3) :
    frameOf r m = .rxIndicate (addrOfPort r.addr) r.rssi r.options (txBytes m r.plen.toNat) := by
  simp [frameOf, h]

end

/-- R95, R121. -/
theorem encodeFrame_frameOf_length (r : PortRecord) (m : Memory) :
    (encodeFrame (frameOf r m)).length = (encodedLen r).toNat := by
  rw [encodedLen_toNat]
  obtain h | h | h | h := kind_cases r.kind
  · simp [frameOf_generic m h, encodeFrame, encodeGeneric_eq, h, Nat.add_comm]
  · simp [frameOf_txRequest m h, encodeFrame, encodeTxReq_eq, h]; omega
  · simp [frameOf_txStatus m h, encodeFrame, encodeTxStat_eq, h]
  · simp [frameOf_rxIndicate m h, encodeFrame, encodeRxInd_eq, h]; omega

/-- Settles O15: no 17-bit addition wraps, and each arm of ENCODE writes its fixed fields and the variable part. -/
theorem encodedLengthFollowsKindAndPlen : Obligations.EncodedLengthFollowsKindAndPlen := by
  refine fun r m => ⟨(encodeFrame_frameOf_length r m).symm, ?_, ?_, ?_⟩ <;> rw [encodedLen_toNat]
  · exact fun h => by simp [h]
  · rintro (h | h) <;> simp [h]
  · exact fun h => by simp [h]

/-! ### The ENC arms -/

theorem exec_encGeneric (tag : Byte) (plen : Half) (s : State) : exec (.encGeneric tag plen) s =
    .next (s.setFnOut (some (.bytes (encodeGeneric tag (txBytes s.txbuf plen.toNat))))) := rfl

theorem exec_encTxReq (id : Byte) (addr : BitVec 64) (options : Byte) (plen : Half) (s : State) :
    exec (.encTxReq id addr options plen) s =
      .next (s.setFnOut (some (.bytes (encodeTxReq id (addrOfPort addr) options (txBytes s.txbuf plen.toNat))))) := rfl

theorem exec_encTxStat (id status : Byte) (s : State) :
    exec (.encTxStat id status) s = .next (s.setFnOut (some (.bytes (encodeTxStat id status)))) := rfl

theorem exec_encRxInd (addr : BitVec 64) (rssi options : Byte) (plen : Half) (s : State) :
    exec (.encRxInd addr rssi options plen) s =
      .next (s.setFnOut (some (.bytes
        (encodeRxInd (addrOfPort addr) rssi options (txBytes s.txbuf plen.toNat))))) := rfl

/-- The port's address in wire order, by shifting (R34). -/
theorem addrBytes_addrOfPort (addr : BitVec 64) :
    addrBytes (addrOfPort addr) = (List.range 8).map fun k => (addr >>> (56 - 8 * k)).setWidth 8 := rfl

theorem txByte_of_byteAt {m : Memory} {k : Nat} {b : Byte} (h : m.byteAt k = some b) : txByte m k = b := by
  rw [txByte, h, Option.getD_some]

/-- Settles O14 by the bytes of each arm, with the address by shifting and the variable part from `txbuf`. -/
theorem encArmsReadRecordAndTxbuf : Obligations.EncArmsReadRecordAndTxbuf := by
  refine fun s plen => ⟨fun tag => ?generic, fun id addr options => ?txReq, fun id status => ?txStat,
    fun addr rssi options => ?rxInd, fun tag raw => ?encode, fun k b => txByte_of_byteAt⟩
  case generic => rw [exec_encGeneric, encodeGeneric_eq, txBytes]
  case txReq => rw [exec_encTxReq, encodeTxReq_eq, addrBytes_addrOfPort, txBytes]
  case txStat => rw [exec_encTxStat, encodeTxStat_eq]
  case rxInd => rw [exec_encRxInd, encodeRxInd_eq, addrBytes_addrOfPort, txBytes]
  case encode => rw [exec_encode, encodeFrame, encodeGeneric_eq]

end Sys2Proof.Machine
end

section
/-!
PROOFS. One step (spec 00_scope.md, 60_exceptions.md, 70_reset_and_hazards.md): what the agenda selects, the moves of
the environment (R150, R154), RESET (R160), taking an error (R148), and the frame of the functions.
-/

namespace Sys2Proof.Machine

/-! ### What a step is, by what stands on the agenda -/

theorem step_rst {s : State} (hr : s.rst = true) : step s = exec .reset (s.setRst false) := if_pos hr

theorem step_op {s : State} {w : Selection} {rest : List Turn} {i : Instr} (hr : s.rst = false)
    (ha : s.agenda = .op w :: rest) (hd : decode w = .ok i) : step s = exec i (s.setAgenda rest) := by
  simp only [step, hr, ha, hd, Bool.false_eq_true, if_false]

theorem step_env {s : State} {m : EnvMove} {rest : List Turn} (hr : s.rst = false) (ha : s.agenda = .env m :: rest) :
    step s = envMove m (s.setAgenda rest) := by
  simp only [step, hr, ha, Bool.false_eq_true, if_false]

/-- Settles O20 by the step's equation for a readable selection. -/
theorem stepRunsTheSelectedOperation : Obligations.StepRunsTheSelectedOperation :=
  fun _ _ _ _ hr ha hd => step_op hr ha hd

/-- Settles O21: the step is RESET's, which leaves the agenda and makes both phases IDLE. -/
theorem resetInputWinsOverEveryOtherStep : Obligations.ResetInputWinsOverEveryOtherStep :=
  fun _ hr => ⟨step_rst hr, _, step_rst hr, rfl, rfl, rfl, rfl⟩

/-! ### Environment moves -/

/-- The producer's write below the end of `txbuf`: the byte itself in IDLE, else the next free value (R45, U19). -/
theorem producerWrites_of_lt {offset : Half} {s : State} (b : Byte) (h : offset.toNat < 65535) :
    producerWrites offset b s =
      if s.tx.phase = .idle then .next (s.setTxbuf (s.txbuf.store offset.toNat b))
      else .next ((s.setTxbuf (s.txbuf.store offset.toNat (Config.disturbedTx s.fresh))).setFresh (s.fresh + 1)) :=
  if_neg (not_le.2 h)

/-- Settles O22: each move is one setter; the store is read back by the laws of memory. -/
theorem environmentMovesLandBetweenSteps : Obligations.EnvironmentMovesLandBetweenSteps := by
  intro s m rest hr ha
  rw [step_env hr ha]
  refine ⟨?deliver, ?answer, ?rdReq, ?rfReady, ?wrReq, ?wrRecord, ?wdReady, ?raiseRst, ?writeTxbuf⟩
  case writeTxbuf =>
    rintro a b rfl hlt
    rw [envMove, producerWrites_of_lt b hlt]
    split_ifs with hp
    · exact ⟨_, b, rfl, Memory.byteAt_store_same s.txbuf _ b, fun _ => rfl,
        fun x hx => Memory.byteAt_store_other s.txbuf b hx, rfl⟩
    · exact ⟨_, _, rfl, Memory.byteAt_store_same s.txbuf _ _, fun he => absurd he hp,
        fun x hx => Memory.byteAt_store_other s.txbuf _ hx, rfl⟩
  case raiseRst => rintro rfl; rfl
  all_goals rintro x rfl; rfl

/-! ### RESET -/

theorem exec_reset (s : State) : exec .reset s = .next
    ((s.setRx ⟨.idle, 0, 0, 0, 0, .ok, s.rx.cause⟩).setTx ⟨.idle, s.tx.frame, 0, 0, 0, .ok, s.tx.cause⟩) := rfl

/-- Settles O55 by RESET's next state, which RESET leaves as it is. -/
theorem resetWritesExactlyItsList : Obligations.ResetWritesExactlyItsList :=
  fun s => ⟨_, exec_reset s, rfl, rfl, rfl, rfl, rfl, rfl⟩

/-- Settles O56 by evaluating the reset state. -/
theorem resetStateHoldsTheValuesOfR27 : Obligations.ResetStateHoldsTheValuesOfR27 :=
  ⟨rfl, rfl, fun _ => rfl, fun _ => rfl, rfl, rfl, rfl, rfl, rfl, rfl, rfl⟩

/-- Settles O57: in IDLE the registers are free, and an empty buffer has the form. -/
theorem blockInvHoldsAtReset : Obligations.BlockInvHoldsAtReset :=
  ⟨trivial, trivial, Memory.wf_nil, Memory.wf_nil⟩

/-! ### Taking an error -/

/-- Settles O51 by reading R148's table and R140's codes off `raiseError` and `code`. -/
theorem errorsWriteExactlyTheirTable : Obligations.ErrorsWriteExactlyTheirTable :=
  fun _ _ => ⟨rfl, rfl, rfl, rfl, rfl, rfl, rfl, rfl, rfl, rfl, rfl, rfl⟩

/-! ### The functions -/

/-- Four operations act on the block; every other one returns a value of its operands and `txbuf` at the result port and
does nothing else. -/
theorem exec_cases (i : Instr) :
    (∃ g : Memory → FnResult, ∀ s, exec i s = .next (s.setFnOut (some (g s.txbuf)))) ∨
      (∃ data csum, i = .frame data csum) ∨ i = .readFrame ∨ i = .writeFrame ∨ i = .reset := by
  cases i with
  | frame data csum => exact .inr (.inl ⟨data, csum, rfl⟩)
  | readFrame => exact .inr (.inr (.inl rfl))
  | writeFrame => exact .inr (.inr (.inr (.inl rfl)))
  | reset => exact .inr (.inr (.inr (.inr rfl)))
  | encGeneric tag plen => exact .inl ⟨fun m => .bytes (encodeGeneric tag (txBytes m plen.toNat)), exec_encGeneric _ _⟩
  | encTxReq id addr options plen =>
    exact .inl ⟨fun m => .bytes (encodeTxReq id (addrOfPort addr) options (txBytes m plen.toNat)),
      exec_encTxReq _ _ _ _⟩
  | encRxInd addr rssi options plen =>
    exact .inl ⟨fun m => .bytes (encodeRxInd (addrOfPort addr) rssi options (txBytes m plen.toNat)),
      exec_encRxInd _ _ _ _⟩
  | encTxStat id status => exact .inl ⟨fun _ => _, exec_encTxStat id status⟩
  | decTxReq rest => exact .inl ⟨fun _ => _, exec_decTxReq rest⟩
  | decTxStat rest => exact .inl ⟨fun _ => _, exec_decTxStat rest⟩
  | decRxInd rest => exact .inl ⟨fun _ => _, exec_decRxInd rest⟩
  | decGeneric tag raw => exact .inl ⟨fun _ => _, exec_decGeneric tag raw⟩
  | decode d => exact .inl ⟨fun _ => _, exec_decode d⟩
  | encode f => exact .inl ⟨fun _ => _, exec_encode f⟩
  | checksum d => exact .inl ⟨fun _ => _, exec_checksum d⟩
  | verify d c => exact .inl ⟨fun _ => _, exec_verify d c⟩
  | enc16 n => exact .inl ⟨fun _ => _, exec_enc16 n⟩
  | dec16 b0 b1 => exact .inl ⟨fun _ => _, exec_dec16 b0 b1⟩
  | pack ps => exact .inl ⟨fun _ => _, exec_pack ps⟩

/-- Settles O24: a function sets the result port to what it returns. -/
theorem functionsWriteNoState : Obligations.FunctionsWriteNoState := by
  intro i s t h hfn
  obtain ⟨g, hg⟩ | ⟨data, csum, rfl⟩ | rfl | rfl | rfl := exec_cases i
  case inl =>
    rw [hg] at h
    cases h
    exact ⟨rfl, rfl, fun _ => rfl, fun _ => rfl⟩
  all_goals exact hfn.elim

end Sys2Proof.Machine
end

section
/-!
PROOFS. READFRAME (spec 43_framestream_rx.md), the rest of its turns: R100, R103, R105 to R111, and its frame.
-/

namespace Sys2Proof.Machine

/-! ### What is ready and what is presented -/

theorem rxReady_iff (s : State) : rxReady s = true ↔ s.rx.phase ≠ .idle ∧ s.rx.phase ≠ .done := by
  cases hp : s.rx.phase <;> simp [rxReady, hp]

theorem readResult_ok {s : State} {f : Frame} (hs : s.rx.status = .ok) (hd : decodeFrame (candidate s) = .ok f) :
    readResult s = some (.frame f) := by
  simp only [readResult, hs, hd]

theorem readResult_transportError {s : State} (hs : s.rx.status = .transportError) :
    readResult s = some (.transportError s.rx.cause) := by
  simp only [readResult, hs]

theorem readResult_eq_frame_iff {s : State} {f : Frame} :
    readResult s = some (.frame f) ↔ s.rx.status = .ok ∧ decodeFrame (candidate s) = .ok f := by
  cases hs : s.rx.status with
  | transportError => simp [readResult_transportError hs]
  | ok => cases hd : decodeFrame (candidate s) <;> simp [readResult, hs, hd]

theorem rfFrame_eq_some_iff {s : State} {f : Frame} :
    rfFrame s = some f ↔ s.rx.phase = .done ∧ s.rx.status = .ok ∧ decodeFrame (candidate s) = .ok f := by
  rw [← readResult_eq_frame_iff, rfFrame]
  split_ifs with hp
  · split
    · rename_i g hg
      simp [hp, hg]
    · rename_i hg
      simpa [hp] using hg f
  · simp [hp]

/-! ### The turns, phase by phase -/

theorem exec_readFrame_idle {s : State} (hp : s.rx.phase = .idle) : exec .readFrame s =
    if s.consumer.rdReq then .next (s.setRx { s.rx with phase := .hunt }) else .next s := by
  show execReadFrame s = _
  rw [execReadFrame, hp]
  rfl

theorem exec_readFrame_done {s : State} (hp : s.rx.phase = .done) :
    exec .readFrame s = if s.consumer.rfReady then .next (rxReturn s) else .next s := by
  show execReadFrame s = _
  rw [execReadFrame, hp]

/-- With no item at hand the sequencer waits (R110). -/
theorem exec_readFrame_blocked {s : State} (hr : rxReady s = true) (hi : s.line.rxItems = []) :
    exec .readFrame s = .next s := by
  show execReadFrame s = _
  rw [execReadFrame_ready hr, rxTake, hi]

theorem exec_readFrame_err {s : State} {e : Config.TErr} {rest : List Item} (hr : rxReady s = true)
    (hi : s.line.rxItems = .err e :: rest) :
    exec .readFrame s = .next ((s.setLine { s.line with rxItems := rest }).setRx
      { s.rx with status := .transportError, cause := e, phase := .done }) := by
  show execReadFrame s = _
  rw [execReadFrame_ready hr, rxTake, hi]
  rfl

theorem exec_readFrame_lenLo {s : State} {b : Byte} {rest : List Item} (hp : s.rx.phase = .lenLo)
    (hi : s.line.rxItems = .byte b :: rest) :
    exec .readFrame s = .next ((s.setLine { s.line with rxItems := rest }).setRx { s.rx with
      len := dec16 s.rx.lenHi b, cnt := 0, sum := 0,
      phase := if dec16 s.rx.lenHi b = 0 then .csum else .data }) := by
  rw [exec_readFrame_byte (by simp [rxReady, hp]) hi, rxByteTaken, setItems_eq, setLine_rx, hp]
  rfl

theorem exec_readFrame_csum {s : State} {c : Byte} {rest : List Item} (hp : s.rx.phase = .csum)
    (hi : s.line.rxItems = .byte c :: rest) : exec .readFrame s = .next (rxCsum c (s.setItems rest)) := by
  rw [exec_readFrame_byte (by simp [rxReady, hp]) hi, rxByteTaken, setItems_eq, setLine_rx, hp]

/-- Settles O31: the token is taken before the phase is looked at. -/
theorem errorTokenEndsTheReadCall : Obligations.ErrorTokenEndsTheReadCall :=
  fun s _ _ hidle hdone hi => exec_readFrame_err ((rxReady_iff s).2 ⟨hidle, hdone⟩) hi

/-- Settles O33 by the turns of IDLE and DONE, neither of which looks at the items, and the wait without an item. -/
theorem readRequestStartsOrWaits : Obligations.ReadRequestStartsOrWaits := by
  refine fun s => ⟨fun hp hq => ?request, fun hidle hdone hi => ?noItem, fun hp hq => ?noRequest, fun hp hq => ?untaken,
    fun t hp h => ?noItemTaken⟩
  case request => rw [exec_readFrame_idle hp, if_pos hq]
  case noItem => exact exec_readFrame_blocked ((rxReady_iff s).2 ⟨hidle, hdone⟩) hi
  case noRequest => rw [exec_readFrame_idle hp, hq]; rfl
  case untaken => rw [exec_readFrame_done hp, hq]; rfl
  case noItemTaken =>
    obtain hp | hp := hp
    · rw [exec_readFrame_idle hp] at h
      split_ifs at h <;> cases h <;> rfl
    · rw [exec_readFrame_done hp] at h
      split_ifs at h <;> cases h <;> rfl

theorem dec16_eq_zero_iff {h l : Byte} : dec16 h l = 0 ↔ 256 * h.toNat + l.toNat = 0 := by
  rw [← dec16_toNat, ← BitVec.toNat_inj]
  rfl

/-- Settles O27 by RX.LEN_LO's next state; the length is zero as a word exactly when it is as a number. -/
theorem secondLengthByteStartsTheAssembly : Obligations.SecondLengthByteStartsTheAssembly := by
  intro s b rest hp hi
  exact ⟨_, exec_readFrame_lenLo hp hi, dec16_toNat _ _, rfl, rfl, if_congr dec16_eq_zero_iff rfl rfl,
    rfl, rfl, rfl, rfl, rfl⟩

/-! ### CSUM: the judgement of a candidate frame -/

theorem rxCsum_accepts {c : Byte} {s : State} (h : judge s.rx.sum (candidate s) c = none) :
    rxCsum c s = s.setRx { s.rx with status := .ok, phase := .done } := by
  rw [rxCsum, h]

theorem rxCsum_discards {c : Byte} {s : State} {e : Event} (h : judge s.rx.sum (candidate s) c = some e) :
    rxCsum c s = (s.setEvents (s.events ++ [e])).setRx { s.rx with phase := .hunt } := by
  rw [rxCsum, h]
  cases e <;> rfl

section
variable {d : List Byte} {c : Byte}

theorem judge_sum8_ok {f : Frame} (hv : verify d c = true) (hd : decodeFrame d = .ok f) : judge (sum8 d) d c = none :=
  judge_eq_none.2 ⟨(verifySum_sum8 d c).trans hv, f, hd⟩

theorem judge_sum8_malformed (hv : verify d c = true) (hd : decodeFrame d = .malformed) :
    judge (sum8 d) d c = some .malformedFrameData := by
  rw [judge, verifySum_sum8, hv, hd]
  rfl

theorem judge_sum8_mismatch (hv : verify d c = false) : judge (sum8 d) d c = some .checksumMismatch := by
  rw [judge, verifySum_sum8, hv]
  rfl

end

/-- In CSUM the running sum is that of the candidate frame (R15). -/
theorem sum_eq_of_rxInv {s : State} (hp : s.rx.phase = .csum) (hinv : RxInv s) : s.rx.sum = sum8 (candidate s) := by
  rw [RxInv, hp] at hinv
  obtain ⟨hcnt, hsum, -⟩ := hinv
  rw [hsum, hcnt, candidate]

/-- Settles O29: the running sum is the candidate's (R15), so the judgement is VERIFY and DECODE, and accepts. -/
theorem validFrameIsPresented : Obligations.ValidFrameIsPresented := by
  intro s c rest f hp hinv hi hv hd
  have haccept : judge s.rx.sum (candidate s) c = none := by
    rw [sum_eq_of_rxInv hp hinv]
    exact judge_sum8_ok hv hd
  refine ⟨_, exec_readFrame_csum hp hi, rxCsum_accepts (s := s.setItems rest) haccept, ?_, ?_⟩
  all_goals rw [rxCsum_accepts (s := s.setItems rest) haccept]
  · exact rfFrame_eq_some_iff.2 ⟨rfl, rfl, hd⟩
  · rfl

/-- Settles O30: the judgement names the checksum first, and only then asks DECODE. -/
theorem badCandidateIsDiscardedWhole : Obligations.BadCandidateIsDiscardedWhole := by
  intro s c rest hp hinv hi
  have hsum := sum_eq_of_rxInv hp hinv
  have discards {e : Event} (h : judge (sum8 (candidate s)) (candidate s) c = some e) :=
    rxCsum_discards (s := s.setItems rest) (hsum ▸ h)
  rw [exec_readFrame_csum hp hi]
  refine ⟨fun hv => ?mismatch, fun hv hd => ?malformed⟩
  case mismatch => rw [discards (judge_sum8_mismatch hv)]; rfl
  case malformed => rw [discards (judge_sum8_malformed hv hd)]; rfl

/-! ### DONE: the result is taken -/

/-- In DONE a result is presented, and it is what the status says (R15). -/
theorem exists_readResult_of_rxInv {s : State} (hp : s.rx.phase = .done) (hinv : RxInv s) :
    ∃ r, readResult s = some r ∧ (s.rx.status = .transportError → r = .transportError s.rx.cause) ∧
      (s.rx.status = .ok → ∃ f, decodeFrame (candidate s) = .ok f ∧ r = .frame f) := by
  rw [RxInv, hp] at hinv
  cases hs : s.rx.status with
  | transportError => exact ⟨_, readResult_transportError hs, fun _ => rfl, RxStatus.noConfusion⟩
  | ok =>
    obtain ⟨-, -, -, f, hd⟩ := hinv hs
    exact ⟨_, readResult_ok hs hd, RxStatus.noConfusion, fun _ => ⟨f, hd, rfl⟩⟩

/-- Settles O32: in DONE there is exactly one result to append (R15). -/
theorem readResultIsTakenOnce : Obligations.ReadResultIsTakenOnce := by
  intro s hp hready hinv
  obtain ⟨r, hr, herr, hok⟩ := exists_readResult_of_rxInv hp hinv
  refine ⟨rxReturn s, r, ?_, rfl, ?_, herr, hok, rfl⟩
  · rw [exec_readFrame_done hp, if_pos hready]
  · rw [rxReturn, hr]
    rfl

/-! ### The frame of READFRAME -/

/-- The state `s` with what READFRAME may write taken from `u`, the events apart. -/
def State.withRx (s u : State) : State :=
  { s with rx := u.rx, rxbuf := u.rxbuf, line := { s.line with rxItems := u.line.rxItems }, consumer := u.consumer }

theorem rxHunt_eq (b : Byte) (s : State) :
    rxHunt b s = s.setRx { s.rx with phase := if b = Config.delim then .lenHi else .hunt } := by
  unfold rxHunt
  split_ifs <;> rfl

/-- RX.CSUM writes phase and status, and appends the event of a discard. -/
theorem rxCsum_eq (c : Byte) (s : State) : rxCsum c s =
      (s.setEvents (s.events ++ (judge s.rx.sum (candidate s) c).toList)).setRx
        { s.rx with
          status := if judge s.rx.sum (candidate s) c = none then .ok else s.rx.status
          phase := if judge s.rx.sum (candidate s) c = none then .done else .hunt } := by
  obtain ⟨hj, h⟩ | ⟨e, hj, h⟩ := rxCsum_cases c s
  · rw [h, hj, Option.toList_none, List.append_nil]
    rfl
  · rw [h, hj]
    rfl

namespace RxTurn

variable {s t : State} (h : RxTurn s t)
include h

/-- Every turn answers a state that differs in the receive side and the events only. -/
theorem eq_withRx : t = (s.withRx t).setEvents t.events := by
  cases h with
  | hunt => rw [rxHunt_eq]; rfl
  | csum => rw [rxCsum_eq]; rfl
  | _ => rfl

/-- At most the first item is gone (R37). -/
theorem rxItems : t.line.rxItems = s.line.rxItems ∨ ∃ x, s.line.rxItems = x :: t.line.rxItems := by
  cases h with
  | error _ _ _ hi => exact .inr ⟨_, hi⟩
  | hunt _ _ _ hi => rw [rxHunt_eq]; exact .inr ⟨_, hi⟩
  | lenHi _ _ _ hi => exact .inr ⟨_, hi⟩
  | lenLo _ _ _ hi => exact .inr ⟨_, hi⟩
  | data _ _ _ hi => exact .inr ⟨_, hi⟩
  | csum _ _ _ hi => rw [rxCsum_eq]; exact .inr ⟨_, hi⟩
  | _ => exact .inl rfl

/-- Only RX.DATA stores, at `rx.cnt` (R104). -/
theorem byteAt_rxbuf (a : Nat)
    (ha : ¬ (s.rx.phase = .data ∧ a = s.rx.cnt.toNat ∧ ∃ b, s.line.rxItems = .byte b :: t.line.rxItems)) :
    t.rxbuf.byteAt a = s.rxbuf.byteAt a := by
  cases h with
  | data b rest hp hi hk => exact Memory.byteAt_store_other s.rxbuf b fun he => ha ⟨hp, he, b, hi⟩
  | hunt => rw [rxHunt_eq]; rfl
  | csum => rw [rxCsum_eq]; rfl
  | _ => rfl

/-- Only RX.TAKE touches the consumer's side, and only the results taken (R109). -/
theorem consumer : t.consumer = s.consumer ∨
    s.rx.phase = .done ∧ ∃ rs, t.consumer = { s.consumer with taken := rs } := by
  cases h with
  | taken hp _ => exact .inr ⟨hp, _, rfl⟩
  | hunt => rw [rxHunt_eq]; exact .inl rfl
  | csum => rw [rxCsum_eq]; exact .inl rfl
  | _ => exact .inl rfl

/-- Only a discard in CSUM emits, and the hunt resumes (R106, R107). -/
theorem events : t.events = s.events ∨
    s.rx.phase = .csum ∧ t.rx.phase = .hunt ∧ ∃ e, t.events = s.events ++ [e] := by
  cases h with
  | hunt => rw [rxHunt_eq]; exact .inl rfl
  | csum c rest hp _ =>
    obtain ⟨-, h⟩ | ⟨e, -, h⟩ := rxCsum_cases c (s.setItems rest) <;> rw [h]
    · exact .inl rfl
    · exact .inr ⟨hp, rfl, e, rfl⟩
  | _ => exact .inl rfl

/-- Which register each phase may write. -/
theorem lengths : (t.rx.lenHi = s.rx.lenHi ∨ s.rx.phase = .lenHi) ∧ (t.rx.len = s.rx.len ∨ s.rx.phase = .lenLo) ∧
    ((t.rx.cnt = s.rx.cnt ∧ t.rx.sum = s.rx.sum) ∨ s.rx.phase = .lenLo ∨ s.rx.phase = .data) := by
  cases h with
  | hunt => rw [rxHunt_eq]; exact ⟨.inl rfl, .inl rfl, .inl ⟨rfl, rfl⟩⟩
  | lenHi _ _ hp _ => exact ⟨.inr hp, .inl rfl, .inl ⟨rfl, rfl⟩⟩
  | lenLo _ _ hp _ => exact ⟨.inl rfl, .inr hp, .inr (.inl hp)⟩
  | data _ _ hp _ _ => exact ⟨.inl rfl, .inl rfl, .inr (.inr hp)⟩
  | csum => rw [rxCsum_eq]; exact ⟨.inl rfl, .inl rfl, .inl ⟨rfl, rfl⟩⟩
  | _ => exact ⟨.inl rfl, .inl rfl, .inl ⟨rfl, rfl⟩⟩

/-- Status and cause are written only on the way to DONE. -/
theorem ending : (t.rx.cause = s.rx.cause ∨ t.rx.phase = .done) ∧ (t.rx.status = s.rx.status ∨ t.rx.phase = .done) := by
  cases h with
  | error => exact ⟨.inr rfl, .inr rfl⟩
  | hunt => rw [rxHunt_eq]; exact ⟨.inl rfl, .inl rfl⟩
  | csum c rest _ _ =>
    obtain ⟨-, h⟩ | ⟨e, -, h⟩ := rxCsum_cases c (s.setItems rest) <;> rw [h]
    · exact ⟨.inl rfl, .inr rfl⟩
    · exact ⟨.inl rfl, .inl rfl⟩
  | _ => exact ⟨.inl rfl, .inl rfl⟩

/-- R111: a turn that is no wait moves the phase along an arrow. -/
theorem arrow : t = s ∨ (s.rx.phase, t.rx.phase) ∈ rxArrows := by
  have moves {p : RxPhase} {u : State} (q : RxPhase) (hp : s.rx.phase = p) (hq : u.rx.phase = q)
      (hpq : (p, q) ∈ rxArrows) : u = s ∨ (s.rx.phase, u.rx.phase) ∈ rxArrows := .inr (hp ▸ hq ▸ hpq)
  cases h with
  | waits => exact .inl rfl
  | request hp _ => exact moves .hunt hp rfl (by decide)
  | taken hp _ => exact moves .idle hp rfl (by decide)
  | error e rest hr _ =>
    refine moves .done rfl rfl ?_
    obtain ⟨hidle, hdone⟩ := (rxReady_iff s).1 hr
    revert hidle hdone
    cases s.rx.phase <;> decide
  | hunt b _ hp _ =>
    rw [rxHunt_eq]
    by_cases hb : b = Config.delim
    · exact moves .lenHi hp (if_pos hb) (by decide)
    · exact moves .hunt hp (if_neg hb) (by decide)
  | lenHi _ _ hp _ => exact moves .lenLo hp rfl (by decide)
  | lenLo b _ hp _ =>
    by_cases hz : dec16 s.rx.lenHi b = 0
    · exact moves .csum hp (if_pos hz) (by decide)
    · exact moves .data hp (if_neg hz) (by decide)
  | data _ _ hp _ _ =>
    by_cases hlast : s.rx.cnt + 1 = s.rx.len
    · exact moves .csum hp (if_pos hlast) (by decide)
    · exact moves .data hp (if_neg hlast) (by decide)
  | csum c rest hp _ =>
    obtain ⟨-, h⟩ | ⟨e, -, h⟩ := rxCsum_cases c (s.setItems rest) <;> rw [h]
    · exact moves .done hp rfl (by decide)
    · exact moves .hunt hp rfl (by decide)

end RxTurn

/-- A turn that takes an item leaves the consumer's side alone. -/
theorem RxTurn.consumer_eq {s t : State} (h : RxTurn s t) (hr : rxReady s = true) : t.consumer = s.consumer :=
  h.consumer.resolve_right fun hdone => ((rxReady_iff s).1 hr).2 hdone.1

/-- Settles O34: the transmit side and the model's own fields by the shape of the next state, the rest register by
register. -/
theorem readFrameTouchesOnlyItsOwnState : Obligations.ReadFrameTouchesOnlyItsOwnState := by
  intro s t hexec
  have h : RxTurn s t := execReadFrame_next hexec
  have hside := h.eq_withRx
  obtain ⟨hlenHi, hlen, hcntSum⟩ := h.lengths
  obtain ⟨hcause, hstatus⟩ := h.ending
  have hconsumer : t.consumer.rdReq = s.consumer.rdReq ∧ t.consumer.rfReady = s.consumer.rfReady ∧
      (t.consumer.taken = s.consumer.taken ∨ s.rx.phase = .done) := by
    obtain hc | ⟨hp, rs, hc⟩ := h.consumer <;> rw [hc]
    · exact ⟨rfl, rfl, .inl rfl⟩
    · exact ⟨rfl, rfl, .inr hp⟩
  obtain ⟨hrdReq, hrfReady, htaken⟩ := hconsumer
  have hevents := h.events.imp_right fun ⟨hp, _, he⟩ => And.intro hp he
  refine ⟨?_, fun a => ?_, ?_, ?_, ?_, h.rxItems, h.byteAt_rxbuf, hrdReq, hrfReady, htaken, hevents, hlenHi, hlen,
    hcntSum, hcause, hstatus, ?_, ?_, ?_, ?_⟩
  all_goals rw [hside]; rfl

/-! ### The transition graph (R111) -/

/-- A receive call in phase `p` of a candidate frame of `len` bytes with the item `x` at hand, asked for and awaited. -/
def rxStart (p : RxPhase) (len : Half) (x : Item) : State :=
  { State.reset with
    rx := { State.reset.rx with phase := p, len := len }
    line := { State.reset.line with rxItems := [x] }
    consumer := { State.reset.consumer with rdReq := true, rfReady := true } }

/-- Settles O35: no turn leaves the table, and for each arrow a byte (or an error token, for the arrows to DONE) makes
it. -/
theorem rxPhaseFollowsItsGraph : Obligations.RxPhaseFollowsItsGraph := by
  refine ⟨fun s t h => (execReadFrame_next h).arrow, ?_⟩
  simp only [rxArrows, List.forall_mem_cons]
  exact ⟨⟨rxStart .idle 0 (.byte 0), _, rfl, by decide, rfl⟩, ⟨rxStart .hunt 0 (.byte 0), _, rfl, by decide, rfl⟩,
    ⟨rxStart .hunt 0 (.byte 0x7E), _, rfl, by decide, rfl⟩, ⟨rxStart .lenHi 0 (.byte 0), _, rfl, by decide, rfl⟩,
    ⟨rxStart .lenLo 0 (.byte 0), _, rfl, by decide, rfl⟩, ⟨rxStart .lenLo 0 (.byte 1), _, rfl, by decide, rfl⟩,
    ⟨rxStart .data 2 (.byte 0), _, rfl, by decide, rfl⟩, ⟨rxStart .data 1 (.byte 0), _, rfl, by decide, rfl⟩,
    ⟨rxStart .csum 0 (.err ⟨0⟩), _, rfl, by decide, rfl⟩, ⟨rxStart .csum 0 (.byte 0), _, rfl, by decide, rfl⟩,
    ⟨rxStart .hunt 0 (.err ⟨0⟩), _, rfl, by decide, rfl⟩, ⟨rxStart .lenHi 0 (.err ⟨0⟩), _, rfl, by decide, rfl⟩,
    ⟨rxStart .lenLo 0 (.err ⟨0⟩), _, rfl, by decide, rfl⟩, ⟨rxStart .data 0 (.err ⟨0⟩), _, rfl, by decide, rfl⟩,
    ⟨rxStart .done 0 (.byte 0), _, rfl, by decide, rfl⟩, by simp⟩

end Sys2Proof.Machine
end

section
/-!
PROOFS. WRITEFRAME (spec 44_framestream_tx.md), its turns: R120 to R123, R125 to R129, the running sum (R16), its frame.
-/

namespace Sys2Proof.Machine

/-! ### The turns, phase by phase -/

theorem exec_writeFrame_idle {s : State} (hp : s.tx.phase = .idle) :
    exec .writeFrame s = if s.producer.wrReq then .next (txAccept s) else .next s := by
  show execWriteFrame s = _
  rw [execWriteFrame, hp]

theorem exec_writeFrame_done {s : State} (hp : s.tx.phase = .done) :
    exec .writeFrame s = if s.producer.wdReady then .next (txReturn s) else .next s := by
  show execWriteFrame s = _
  rw [execWriteFrame, hp]

theorem exec_writeFrame_send {s : State} (hp : s.tx.phase = .send) : exec .writeFrame s = txSend s := by
  show execWriteFrame s = _
  rw [execWriteFrame, hp]

/-- With no answer the same byte stays offered (R128). -/
theorem exec_writeFrame_blocked {s : State} (hp : s.tx.phase = .send) (ha : s.line.txAnswers = []) :
    exec .writeFrame s = .next s := by
  rw [exec_writeFrame_send hp, txSend, ha]

/-- The state after the answer `a` to the offered byte `b`, before it is asked whether the write ends. -/
def answerTaken (a : TxAnswer) (b : Byte) (rest : List TxAnswer) (s : State) : State :=
  if a.ready then txAccepted b (s.setAnswers rest) else s.setAnswers rest

theorem exec_writeFrame_answer {s : State} {a : TxAnswer} {rest : List TxAnswer} {b : Byte} (hp : s.tx.phase = .send)
    (ha : s.line.txAnswers = a :: rest) (hb : txData s = some b) :
    exec .writeFrame s = .next (txEnd a (answerTaken a b rest s)) := by
  rw [txData, if_pos hp] at hb
  rw [exec_writeFrame_send hp, txSend, ha]
  simp only [txAnswered, setAnswers_eq, setLine_tx, setLine_txbuf, hb]
  rfl

theorem answerTaken_ready {a : TxAnswer} (b : Byte) (rest : List TxAnswer) (s : State) (h : a.ready = true) :
    answerTaken a b rest s =
      (s.setLine { s.line with txAnswers := rest, txStream := s.line.txStream ++ [b] }).setTx { s.tx with
        sum := if 3 ≤ s.tx.idx.toNat ∧ s.tx.idx.toNat ≤ s.tx.n.toNat + 2 then s.tx.sum + b else s.tx.sum,
        idx := s.tx.idx + 1 } := by
  rw [answerTaken, if_pos h, txAccepted_setAnswers]

theorem answerTaken_notReady {a : TxAnswer} (b : Byte) (rest : List TxAnswer) (s : State) (h : a.ready = false) :
    answerTaken a b rest s = s.setLine { s.line with txAnswers := rest } := by
  rw [answerTaken, if_neg (by simp [h]), setAnswers_eq]

/-- An answer touches the transmit side of the line, the index and the sum. -/
theorem answerTaken_eq (a : TxAnswer) (b : Byte) (rest : List TxAnswer) (s : State) : ∃ sent sum idx,
    answerTaken a b rest s = (s.setLine { s.line with txAnswers := rest, txStream := s.line.txStream ++ sent }).setTx
      { s.tx with sum := sum, idx := idx } ∧ (sent = [] ∨ sent = [b]) := by
  cases h : a.ready with
  | true => exact ⟨_, _, _, answerTaken_ready b rest s h, .inr rfl⟩
  | false =>
    rw [answerTaken_notReady b rest s h]
    exact ⟨[], s.tx.sum, s.tx.idx, by rw [List.append_nil]; rfl, .inl rfl⟩

/-! ### How a write ends (R125, R126) -/

theorem txEnd_error {a : TxAnswer} (s : State) (hs : a.stop = true) (he : a.err = true) :
    txEnd a s = s.setTx { s.tx with status := .transportError, cause := a.cause, phase := .done } := by
  rw [txEnd, hs, he]
  rfl

theorem txEnd_stop {a : TxAnswer} (s : State) (hs : a.stop = true) (he : a.err = false) :
    txEnd a s = s.setTx { s.tx with status := .ok, phase := .done } := by
  simp [txEnd, hs, he]

theorem txEnd_last {a : TxAnswer} {s : State} (hs : a.stop = false) (hi : s.tx.idx.toNat = s.tx.n.toNat + 4) :
    txEnd a s = s.setTx { s.tx with status := .ok, phase := .done } := by
  simp [txEnd, hs, hi]

/-! ### Accepting, waiting, taking -/

/-- Settles O46 by the turns of IDLE and DONE, and the wait without an answer. -/
theorem writeResultIsTakenOrWaits : Obligations.WriteResultIsTakenOrWaits := by
  refine fun s => ⟨fun hp hr => ?taken, fun hp hr => ?untaken, exec_writeFrame_blocked, fun hp hr => ?noRequest⟩
  case taken => rw [exec_writeFrame_done hp, if_pos hr]; rfl
  case untaken => rw [exec_writeFrame_done hp, hr]; rfl
  case noRequest => rw [exec_writeFrame_idle hp, hr]; rfl

/-- Settles O42: the encoded length is ENCODE's, and the two ends of the range check are the two cases of accepting. -/
theorem writeRequestIsLatchedAndRangeChecked : Obligations.WriteRequestIsLatchedAndRangeChecked := by
  intro s hp hreq
  have hexec : exec .writeFrame s = .next (txAccept s) := by rw [exec_writeFrame_idle hp, if_pos hreq]
  rw [encodeFrame_frameOf_length]
  obtain ⟨hlong, heq⟩ | ⟨hshort, heq⟩ := txAccept_cases s <;> rw [heq] at hexec
  · exact ⟨_, hexec, rfl, rfl, rfl, rfl, rfl, fun _ => ⟨rfl, rfl⟩, fun h => absurd h (not_le.2 hlong), rfl⟩
  · exact ⟨_, hexec, rfl, rfl, rfl, rfl, rfl, fun h => absurd h (not_lt.2 hshort), fun _ => ⟨rfl, rfl⟩, rfl⟩

/-! ### The byte offered is the envelope's (R123) -/

theorem variableByte_eq (r : PortRecord) (m : Memory) (k : Nat) :
    variableByte r m k = (txBytes m r.plen.toNat)[k]? := by
  rw [variableByte, txBytes, List.getElem?_map]
  split_ifs with h
  · rw [List.getElem?_range h]; rfl
  · rw [List.getElem?_eq_none (by simpa using h)]; rfl

/-- Behind eleven fixed bytes stands the variable part. -/
theorem getElem?_eleven_append {fixed var : List Byte} (h : fixed.length = 11) (k : Nat) :
    (fixed ++ var)[11 + k]? = var[k]? := by
  rw [List.getElem?_append_right (by omega), h, Nat.add_sub_cancel_left]

theorem frameByte_txRequest_variable {r : PortRecord} (m : Memory) (h : r.kind = 1) (k : Nat) :
    frameByte r m (11 + k) = variableByte r m k := by
  have hfixed : ¬ 11 + k = 0 ∧ ¬ 11 + k = 1 ∧ ¬ 11 + k < 10 ∧ ¬ 11 + k = 10 := by omega
  simp [frameByte, h, hfixed]

theorem frameByte_rxIndicate_variable {r : PortRecord} (m : Memory) (h : r.kind = 3) (k : Nat) :
    frameByte r m (11 + k) = variableByte r m k := by
  have hfixed : ¬ 11 + k = 0 ∧ ¬ 11 + k < 9 ∧ ¬ 11 + k = 9 ∧ ¬ 11 + k = 10 := by omega
  simp [frameByte, h, hfixed]

theorem frameByte_txStatus_beyond {r : PortRecord} (m : Memory) (h : r.kind = 2) {j : Nat} (hj : 3 ≤ j) :
    frameByte r m j = none := by
  have hfixed : j ≠ 0 ∧ j ≠ 1 ∧ j ≠ 2 := by omega
  simp [frameByte, h, hfixed]

/-- R123's table is ENCODE of the latched Frame, byte by byte: the fixed fields one index after the other, then the
variable part. -/
theorem frameByte_eq (r : PortRecord) (m : Memory) (j : Nat) : frameByte r m j = (encodeFrame (frameOf r m))[j]? := by
  obtain h | h | h | h := kind_cases r.kind
  · rw [frameOf_generic m h, encodeFrame, encodeGeneric_eq]
    cases j with
    | zero => simp [frameByte, h]
    | succ k => simp [frameByte, h, variableByte_eq]
  · rw [frameOf_txRequest m h, encodeFrame, encodeTxReq_eq]
    obtain hj | hj := Nat.lt_or_ge j 11
    · simp only [frameByte, h]
      interval_cases j <;> rfl
    · obtain ⟨k, rfl⟩ := Nat.exists_eq_add_of_le hj
      rw [getElem?_eleven_append rfl, frameByte_txRequest_variable m h, variableByte_eq]
  · rw [frameOf_txStatus m h, encodeFrame, encodeTxStat_eq]
    obtain hj | hj := Nat.lt_or_ge j 3
    · simp only [frameByte, h]
      interval_cases j <;> rfl
    · rw [frameByte_txStatus_beyond m h hj, List.getElem?_eq_none hj]
  · rw [frameOf_rxIndicate m h, encodeFrame, encodeRxInd_eq]
    obtain hj | hj := Nat.lt_or_ge j 11
    · simp only [frameByte, h]
      interval_cases j <;> rfl
    · obtain ⟨k, rfl⟩ := Nat.exists_eq_add_of_le hj
      rw [getElem?_eleven_append rfl, frameByte_rxIndicate_variable m h, variableByte_eq]

/-- The bytes of an envelope behind the delimiter and the length. -/
theorem envelope_getElem?_add_three (d : List Byte) (j : Nat) :
    (envelope d)[j + 3]? = (d ++ [checksum d])[j]? := by
  rw [envelope_eq]
  rfl

/-- R123's byte at `i` is the envelope's; at the checksum's place this needs the running sum of all the frame data. -/
theorem envelopeByte_eq {t : TxRegs} {m : Memory} {d : List Byte} {i : Nat} (hd : d = encodeFrame (frameOf t.frame m))
    (hn : t.n.toNat = d.length) (hsum : i = d.length + 3 → t.sum = sum8 d) :
    envelopeByte t m i = (envelope d)[i]? := by
  match i with
  | 0 => simp [envelopeByte, envelope_eq]
  | 1 => rw [envelopeByte, envelope_eq, hn]; rfl
  | 2 => rw [envelopeByte, envelope_eq, hn]; rfl
  | j + 3 =>
    have hfixed : ¬ j + 3 = 0 ∧ ¬ j + 3 = 1 ∧ ¬ j + 3 = 2 := by omega
    rw [envelope_getElem?_add_three]
    simp only [envelopeByte, hfixed, if_false, hn, Nat.add_lt_add_iff_right, Nat.add_right_cancel_iff,
      Nat.add_sub_cancel, frameByte_eq, ← hd]
    obtain hj | rfl | hj := Nat.lt_trichotomy j d.length
    · rw [if_pos hj, List.getElem?_append_left hj]
    · rw [if_neg (lt_irrefl _), if_pos rfl, List.getElem?_concat_length, hsum rfl, checksum]
    · rw [if_neg (by omega), if_neg (by omega), List.getElem?_eq_none (by simp; omega)]

/-- The envelope a write call sends: that of the latched Frame. -/
def sentEnvelope (s : State) : List Byte := envelope (encodeFrame (frameOf s.tx.frame s.txbuf))

/-- In SEND, what R17 says. -/
theorem txInv_send {s : State} (hp : s.tx.phase = .send) (hinv : TxInv s) :
    s.tx.n.toNat = (encodeFrame (frameOf s.tx.frame s.txbuf)).length ∧ s.tx.n.toNat ≤ 65535 ∧
      s.tx.idx.toNat < s.tx.n.toNat + 4 := by
  rw [TxInv, hp] at hinv
  obtain ⟨hn, -, hmax, hidx⟩ := hinv
  exact ⟨by rw [encodeFrame_frameOf_length, hn], hmax, hidx⟩

theorem txData_eq {s : State} (hp : s.tx.phase = .send) (hinv : TxInv s) (hsum : TxSum s) :
    txData s = (sentEnvelope s)[s.tx.idx.toNat]? := by
  obtain ⟨hn, -, -⟩ := txInv_send hp hinv
  rw [txData, if_pos hp]
  refine envelopeByte_eq rfl hn fun hlast => ?_
  rw [hsum hp, hlast, Nat.add_sub_cancel, List.take_length]

/-- Settles O43: R123's table is ENCODE's bytes; the checksum comes from the running sum, which is complete by then. -/
theorem offeredByteIsTheEnvelopeByte : Obligations.OfferedByteIsTheEnvelopeByte := by
  intro s hp hinv hsum
  refine ⟨txData_eq hp hinv hsum, Option.isSome_iff_exists.2 (exists_txData_of_txInv hp hinv), ?_⟩
  rw [envelope_length, ← (txInv_send hp hinv).1]
  simp [txLast, hp]

/-! ### One answer, and what it leads to -/

/-- R17's bound keeps the index from wrapping. -/
theorem answerTaken_idx {s : State} (hp : s.tx.phase = .send) (hinv : TxInv s) (a : TxAnswer) (b : Byte)
    (rest : List TxAnswer) :
    (answerTaken a b rest s).tx.idx.toNat = s.tx.idx.toNat + (if a.ready = true then 1 else 0) := by
  cases h : a.ready with
  | true => rw [answerTaken_ready b rest s h]; exact idx_succ_toNat hp hinv
  | false => rw [answerTaken_notReady b rest s h]; rfl

/-- Settles O45: the index counts the answer, and the three ways to end are `txEnd`'s. -/
theorem writeEndsAsTheTransportSays : Obligations.WriteEndsAsTheTransportSays := by
  intro s a rest hp hinv ha
  obtain ⟨b, hb⟩ := exists_txData_of_txInv hp hinv
  have hidx := answerTaken_idx hp hinv a b rest
  obtain ⟨-, -, hlt⟩ := txInv_send hp hinv
  obtain ⟨sent, sum, idx, htaken, -⟩ := answerTaken_eq a b rest s
  have hcause : (answerTaken a b rest s).tx.cause = s.tx.cause := by rw [htaken]; rfl
  have hn : (answerTaken a b rest s).tx.n = s.tx.n := by rw [htaken]; rfl
  refine ⟨_, exec_writeFrame_answer hp ha hb, ?idx, fun hs he => ?error, fun hs he => ?stop, fun hs hr hlast => ?last,
    fun hs hr => ?neither⟩
  case idx =>
    obtain ⟨p, st, c, hend⟩ := txEnd_eq_setTx a (answerTaken a b rest s)
    rw [hend]
    exact hidx
  case error => rw [txEnd_error _ hs he]; exact ⟨rfl, rfl, rfl⟩
  case stop => rw [txEnd_stop _ hs he]; exact ⟨rfl, rfl, hcause⟩
  case last =>
    rw [hr, if_pos rfl, hlast] at hidx
    rw [txEnd_last hs (by rw [hidx, hn])]
    exact ⟨rfl, rfl, hcause, hidx⟩
  case neither =>
    rw [answerTaken_notReady b rest s hr]
    exact txEnd_goesOn hs (Nat.ne_of_lt hlt)

end Sys2Proof.Machine
end

section
/-!
PROOFS. What every turn of WRITEFRAME keeps: its frame (R36, R38), the transition graph (R129), R17 and the running sum
(R16).
-/

namespace Sys2Proof.Machine

/-- The state `s` with all that WRITEFRAME reads or writes taken from `u`. -/
def State.withTx (s u : State) : State :=
  { s with
    tx := u.tx, txbuf := u.txbuf, producer := u.producer
    line := { s.line with txAnswers := u.line.txAnswers, txStream := u.line.txStream } }

/-- All that an answer in SEND can do: it is gone, at most the offered byte is sent, the latched record and `tx.n` stay,
and the cause changes only with TRANSPORT_ERROR. -/
theorem txEnd_answerTaken_eq {s : State} (hp : s.tx.phase = .send) (a : TxAnswer) (b : Byte) (rest : List TxAnswer) :
    ∃ sent p st c sum idx, txEnd a (answerTaken a b rest s) =
        (s.setLine { s.line with txAnswers := rest, txStream := s.line.txStream ++ sent }).setTx
          { s.tx with phase := p, status := st, cause := c, sum := sum, idx := idx } ∧
      (sent = [] ∨ sent = [b]) ∧ (p = .send ∨ p = .done) ∧ (c = s.tx.cause ∨ st = .transportError) := by
  obtain ⟨sent, sum, idx, htaken, hsent⟩ := answerTaken_eq a b rest s
  obtain ⟨-, -, h⟩ | ⟨-, -, h⟩ | ⟨-, -, h⟩ := txEnd_cases a (answerTaken a b rest s) <;> rw [htaken] at h ⊢
  · exact ⟨sent, .done, .transportError, a.cause, sum, idx, h, hsent, .inr rfl, .inr rfl⟩
  · exact ⟨sent, .done, .ok, s.tx.cause, sum, idx, h, hsent, .inr rfl, .inl rfl⟩
  · exact ⟨sent, s.tx.phase, s.tx.status, s.tx.cause, sum, idx, h, hsent, .inl hp, .inl rfl⟩

/-- The four kinds of turn, each with its next state written as what it sets. -/
inductive TxEffect (s : State) : State → Prop
  | waits : TxEffect s s
  | accepted (p : TxPhase) (st : TxStatus) (hp : s.tx.phase = .idle) (hphase : p = .send ∨ p = .done) :
      TxEffect s (s.setTx ⟨p, s.producer.wrRecord, encodedLen s.producer.wrRecord, 0, 0, st, s.tx.cause⟩)
  | taken (hp : s.tx.phase = .done) : TxEffect s (txReturn s)
  | answered (a : TxAnswer) (rest : List TxAnswer) (b : Byte) (sent : List Byte) (t : TxRegs) (hp : s.tx.phase = .send)
      (ha : s.line.txAnswers = a :: rest) (hb : txData s = some b) (hsent : sent = [] ∨ sent = [b])
      (hphase : t.phase = .send ∨ t.phase = .done) (hlatched : t.frame = s.tx.frame ∧ t.n = s.tx.n)
      (hcause : t.cause = s.tx.cause ∨ t.status = .transportError) :
      TxEffect s ((s.setLine { s.line with txAnswers := rest, txStream := s.line.txStream ++ sent }).setTx t)

namespace TxTurn

variable {s t : State} (h : TxTurn s t)
include h

theorem effect : TxEffect s t := by
  cases h with
  | waits => exact .waits
  | request hp _ =>
    obtain ⟨-, h⟩ | ⟨-, h⟩ := txAccept_cases s <;> rw [h]
    · exact .accepted .done .valueOutOfRange hp (.inr rfl)
    · exact .accepted .send s.tx.status hp (.inl rfl)
  | taken hp _ => exact .taken hp
  | answered a rest b hp ha hb =>
    obtain ⟨sent, p, st, c, sum, idx, h, hsent, hphase, hcause⟩ := txEnd_answerTaken_eq hp a b rest
    exact h ▸ .answered a rest b sent _ hp ha ((if_pos hp).trans hb) hsent hphase ⟨rfl, rfl⟩ hcause

/-- Every turn answers a state that differs in the transmit side only. -/
theorem eq_withTx : t = s.withTx t := by
  cases h.effect <;> rfl

/-- WRITEFRAME reads `txbuf` and never writes it (R19). -/
theorem txbuf : t.txbuf = s.txbuf := by
  cases h.effect <;> rfl

/-- At most one byte is sent, the one offered, and at most the first answer is used up (R38, R123). -/
theorem stream : (t.line.txStream = s.line.txStream ∨
      ∃ b, txData s = some b ∧ t.line.txStream = s.line.txStream ++ [b]) ∧
    (t.line.txAnswers = s.line.txAnswers ∨ ∃ a, s.line.txAnswers = a :: t.line.txAnswers) := by
  cases h.effect with
  | answered a rest b sent _ _ ha hb hsent =>
    refine ⟨?_, .inr ⟨a, ha⟩⟩
    obtain rfl | rfl := hsent
    · exact .inl (List.append_nil _)
    · exact .inr ⟨b, hb, rfl⟩
  | _ => exact ⟨.inl rfl, .inl rfl⟩

/-- Only TX.TAKE touches the producer's side, and only the results taken (R127). -/
theorem producer : t.producer = s.producer ∨
    s.tx.phase = .done ∧ ∃ rs, t.producer = { s.producer with taken := rs } := by
  cases h.effect with
  | taken hp => exact .inr ⟨hp, _, rfl⟩
  | _ => exact .inl rfl

/-- The record and its length are latched in IDLE only; the cause is a transport error's. -/
theorem latched : (t.tx.frame = s.tx.frame ∨ s.tx.phase = .idle) ∧ (t.tx.n = s.tx.n ∨ s.tx.phase = .idle) ∧
    (t.tx.cause = s.tx.cause ∨ s.tx.phase = .send ∧ t.tx.status = .transportError) := by
  cases h.effect with
  | accepted _ _ hp _ => exact ⟨.inr hp, .inr hp, .inl rfl⟩
  | answered _ _ _ _ _ hp _ _ _ _ hlatched hcause =>
    obtain ⟨hframe, hn⟩ := hlatched
    exact ⟨.inl hframe, .inl hn, hcause.imp_right fun hst => ⟨hp, hst⟩⟩
  | _ => exact ⟨.inl rfl, .inl rfl, .inl rfl⟩

/-- R129: a turn that is no wait moves the phase along an arrow. -/
theorem arrow : t = s ∨ (s.tx.phase, t.tx.phase) ∈ txArrows := by
  have moves {p : TxPhase} {u : State} (q : TxPhase) (hp : s.tx.phase = p) (hq : u.tx.phase = q)
      (hpq : (p, q) ∈ txArrows) : u = s ∨ (s.tx.phase, u.tx.phase) ∈ txArrows := .inr (hp ▸ hq ▸ hpq)
  cases h.effect with
  | waits => exact .inl rfl
  | accepted _ _ hp hphase =>
    obtain rfl | rfl := hphase
    · exact moves .send hp rfl (by decide)
    · exact moves .done hp rfl (by decide)
  | taken hp => exact moves .idle hp rfl (by decide)
  | answered _ _ _ _ _ hp _ _ _ hphase =>
    obtain hq | hq := hphase
    · exact moves .send hp hq (by decide)
    · exact moves .done hp hq (by decide)

end TxTurn

/-- Settles O47: the receive side and the model's own fields by the shape of the next state, the rest register by
register. -/
theorem writeFrameTouchesOnlyItsOwnState : Obligations.WriteFrameTouchesOnlyItsOwnState := by
  intro s t hexec
  have h : TxTurn s t := execWriteFrame_next hexec
  have hside := h.eq_withTx
  obtain ⟨hstream, hanswers⟩ := h.stream
  obtain ⟨hframe, hn, hcause⟩ := h.latched
  have hproducer : t.producer.wrReq = s.producer.wrReq ∧ t.producer.wrRecord = s.producer.wrRecord ∧
      t.producer.wdReady = s.producer.wdReady ∧ (t.producer.taken = s.producer.taken ∨ s.tx.phase = .done) := by
    obtain hc | ⟨hp, rs, hc⟩ := h.producer <;> rw [hc]
    · exact ⟨rfl, rfl, rfl, .inl rfl⟩
    · exact ⟨rfl, rfl, rfl, .inr hp⟩
  obtain ⟨hwrReq, hwrRecord, hwdReady, htaken⟩ := hproducer
  refine ⟨?_, fun a => ?_, fun a => by rw [h.txbuf], ?_, ?_, hstream, hanswers, hwrReq, hwrRecord, hwdReady, htaken,
    hframe, hn, hcause, ?_, ?_, ?_, ?_, ?_⟩
  all_goals rw [hside]; rfl

/-! ### The transition graph (R129) -/

/-- A write call for `r` in phase `p`, asked for and awaited, with one answer that stops or not. -/
def txStart (p : TxPhase) (r : PortRecord) (stop : Bool) : State :=
  { State.reset with
    tx := { State.reset.tx with phase := p }
    line := { State.reset.line with txAnswers := [⟨true, stop, false, ⟨0⟩⟩] }
    producer := { State.reset.producer with wrReq := true, wrRecord := r, wdReady := true } }

/-- Settles O48: no turn leaves the table, and for each arrow a record or an answer makes it. -/
theorem txPhaseFollowsItsGraph : Obligations.TxPhaseFollowsItsGraph := by
  refine ⟨fun s t h => (execWriteFrame_next h).arrow, ?_⟩
  simp only [txArrows, List.forall_mem_cons]
  exact ⟨⟨txStart .idle zeroRecord false, _, rfl, by decide, rfl⟩,
    ⟨txStart .idle { zeroRecord with plen := 65535 } false, _, rfl, by decide, rfl⟩,
    ⟨txStart .send zeroRecord false, _, rfl, by decide, rfl⟩, ⟨txStart .send zeroRecord true, _, rfl, by decide, rfl⟩,
    ⟨txStart .done zeroRecord false, _, rfl, by decide, rfl⟩, by simp⟩

/-! ### R17 and the running sum are kept -/

/-- In DONE after a call that was not refused, R17 is a bound on the index. -/
theorem txInv_done_of_le {s : State} (hp : s.tx.phase = .done) (hn : s.tx.n = encodedLen s.tx.frame)
    (hst : s.tx.status ≠ .valueOutOfRange) (hmax : s.tx.n.toNat ≤ 65535) (hidx : s.tx.idx.toNat ≤ s.tx.n.toNat + 4) :
    TxInv s := by
  rw [TxInv, hp]
  exact ⟨hn, iff_of_false hst (not_lt.2 hmax), fun h => absurd h hst, hidx⟩

theorem txInv_txAccept (s : State) : TxInv (txAccept s) := by
  obtain ⟨hlong, h⟩ | ⟨hshort, h⟩ := txAccept_cases s <;> rw [h]
  · exact ⟨rfl, iff_of_true rfl hlong, fun _ => rfl, Nat.zero_le _⟩
  · refine ⟨rfl, ?_, hshort, Nat.zero_lt_succ _⟩
    show 1 ≤ (encodedLen s.producer.wrRecord).toNat
    rw [← encodeFrame_frameOf_length _ s.txbuf]
    exact encodeFrame_length_pos _

/-- R17 through one answer: the index stays within the envelope, and reaches its end only in DONE. -/
theorem txInv_txEnd_answerTaken {s : State} (hp : s.tx.phase = .send) (hinv : TxInv s) (a : TxAnswer) (b : Byte)
    (rest : List TxAnswer) : TxInv (txEnd a (answerTaken a b rest s)) := by
  have hidx := answerTaken_idx hp hinv a b rest
  obtain ⟨-, -, hlt⟩ := txInv_send hp hinv
  rw [TxInv, hp] at hinv
  obtain ⟨hn, hpos, hmax, -⟩ := hinv
  obtain ⟨sent, sum, idx, htaken, -⟩ := answerTaken_eq a b rest s
  rw [htaken] at hidx ⊢
  have hle : idx.toNat ≤ s.tx.n.toNat + 4 := by
    have hone : (if a.ready = true then 1 else 0) ≤ 1 := by split_ifs <;> omega
    simp only [setTx_tx] at hidx
    omega
  obtain ⟨-, -, h⟩ | ⟨-, -, h⟩ | ⟨-, hmore, h⟩ := txEnd_cases a _ <;> rw [h]
  · exact txInv_done_of_le rfl hn TxStatus.noConfusion hmax hle
  · exact txInv_done_of_le rfl hn TxStatus.noConfusion hmax hle
  · rw [TxInv, setTx_tx, hp]
    exact ⟨hn, hpos, hmax, lt_of_le_of_ne hle hmore⟩

theorem TxTurn.txInv {s t : State} (h : TxTurn s t) (hinv : TxInv s) : TxInv t := by
  cases h with
  | waits => exact hinv
  | request => exact txInv_txAccept s
  | taken => exact trivial
  | answered a rest b hp _ _ => exact txInv_txEnd_answerTaken hp hinv a b rest

theorem sum8_take_succ {d : List Byte} {j : Nat} {b : Byte} (h : d[j]? = some b) :
    sum8 (d.take (j + 1)) = sum8 (d.take j) + b := by
  rw [List.take_add_one, h, sum8_append, Option.toList_some, sum8_cons, sum8_nil, add_zero]

/-- The sum of the frame data accepted, one byte of the envelope further (R124): delimiter and length do not count. -/
theorem sum8_take_envelope {d : List Byte} {i : Nat} {b : Byte} (hi : i < d.length + 3)
    (hb : (envelope d)[i]? = some b) :
    sum8 (d.take (i + 1 - 3)) =
      if 3 ≤ i ∧ i ≤ d.length + 2 then sum8 (d.take (i - 3)) + b else sum8 (d.take (i - 3)) := by
  obtain hlow | hdata := Nat.lt_or_ge i 3
  · rw [if_neg (by omega), Nat.sub_eq_zero_of_le hlow, Nat.sub_eq_zero_of_le hlow.le]
  · obtain ⟨j, rfl⟩ := Nat.exists_eq_add_of_le' hdata
    have hj : j < d.length := by omega
    rw [envelope_getElem?_add_three, List.getElem?_append_left hj] at hb
    rw [if_pos (by omega), Nat.add_sub_cancel, Nat.add_right_comm, Nat.add_sub_cancel, sum8_take_succ hb]

/-- The running sum through one answer that leaves the call in SEND. -/
theorem txSum_answerTaken {s : State} (hp : s.tx.phase = .send) (hinv : TxInv s) (hsum : TxSum s) {a : TxAnswer}
    {b : Byte} {rest : List TxAnswer} (hb : txData s = some b)
    (hmore : (answerTaken a b rest s).tx.idx.toNat ≠ s.tx.n.toNat + 4) : TxSum (answerTaken a b rest s) := by
  have hidx := answerTaken_idx hp hinv a b rest
  obtain ⟨hn, -, hlt⟩ := txInv_send hp hinv
  cases hr : a.ready with
  | false => rw [answerTaken_notReady b rest s hr]; exact hsum
  | true =>
    rw [hr, if_pos rfl] at hidx
    rw [answerTaken_ready b rest s hr] at hidx hmore ⊢
    intro _
    rw [txData_eq hp hinv hsum, sentEnvelope] at hb
    have hi : s.tx.idx.toNat < s.tx.n.toNat + 3 := by omega
    simp only [setTx_tx, setTx_txbuf, setLine_txbuf] at hidx ⊢
    rw [hidx, sum8_take_envelope (hn ▸ hi) hb, hn, hsum hp]

/-- Settles O49: an accepted byte adds to the sum exactly when it is frame data; when the checksum byte is accepted the
call is over. -/
theorem writeFrameKeepsItsRunningSum : Obligations.WriteFrameKeepsItsRunningSum := by
  intro s t hinv hsum hexec
  have h : TxTurn s t := execWriteFrame_next hexec
  cases h with
  | waits => exact hsum
  | request => obtain ⟨-, h⟩ | ⟨-, h⟩ := txAccept_cases s <;> rw [h] <;> intro _ <;> rfl
  | taken => exact fun hp => TxPhase.noConfusion hp
  | answered a rest b hp ha hb =>
    have hdata : txData s = some b := (if_pos hp).trans hb
    show TxSum (txEnd a (answerTaken a b rest s))
    obtain ⟨sent, sum, idx, htaken, -⟩ := answerTaken_eq a b rest s
    have hn : (answerTaken a b rest s).tx.n = s.tx.n := by rw [htaken]; rfl
    obtain ⟨-, -, h⟩ | ⟨-, -, h⟩ | ⟨-, hmore, h⟩ := txEnd_cases a (answerTaken a b rest s) <;> rw [h]
    · exact fun hp => TxPhase.noConfusion hp
    · exact fun hp => TxPhase.noConfusion hp
    · exact txSum_answerTaken hp hinv hsum hdata (hn ▸ hmore)

end Sys2Proof.Machine
end

section
/-!
PROOFS. WRITEFRAME as one function (spec 44_framestream_tx.md R130): the turns of a whole write call.
-/

namespace Sys2Proof.Machine

/-! ### Turns one after the other -/

theorem turns_succ {i : Instr} {k : Nat} {s u : State} (h : exec i s = .next u) : turns i (k + 1) s = turns i k u := by
  rw [turns, h]

theorem turns_one {i : Instr} {s t : State} (h : exec i s = .next t) : turns i 1 s = .next t := turns_succ h

/-! ### Sending -/

/-- In SEND, in a state R17 and R16 allow, the transmit stream is `base` and then the bytes of the envelope up to
`tx.idx`. -/
structure Sending (base : List Byte) (s : State) : Prop where
  phase : s.tx.phase = .send
  inv : TxInv s
  sum : TxSum s
  stream : s.line.txStream = base ++ (sentEnvelope s).take s.tx.idx.toNat

/-- What a whole call of WRITEFRAME leaves alone while it sends. -/
def SameCall (s t : State) : Prop :=
  t.line.rxItems = s.line.rxItems ∧ t.producer = s.producer ∧ sentEnvelope t = sentEnvelope s ∧ t.tx.n = s.tx.n

theorem SameCall.refl (s : State) : SameCall s s := ⟨rfl, rfl, rfl, rfl⟩

theorem SameCall.trans {s t u : State} (h : SameCall s t) (g : SameCall t u) : SameCall s u := by
  obtain ⟨h1, h2, h3, h4⟩ := h
  obtain ⟨g1, g2, g3, g4⟩ := g
  exact ⟨g1.trans h1, g2.trans h2, g3.trans h3, g4.trans h4⟩

/-- One answer while sending: the stream stays the envelope up to the index (R124), whether or not the call ends. -/
theorem Sending.answer {base : List Byte} {s : State} {a : TxAnswer} {rest : List TxAnswer} (h : Sending base s)
    (ha : s.line.txAnswers = a :: rest) :
    ∃ t, exec .writeFrame s = .next t ∧ SameCall s t ∧ t.line.txAnswers = rest ∧
      t.line.txStream = base ++ (sentEnvelope s).take t.tx.idx.toNat := by
  obtain ⟨b, hb⟩ := exists_txData_of_txInv h.phase h.inv
  have hidx := answerTaken_idx h.phase h.inv a b rest
  obtain ⟨p, st, c, hend⟩ := txEnd_eq_setTx a (answerTaken a b rest s)
  refine ⟨_, exec_writeFrame_answer h.phase ha hb, ?_⟩
  rw [hend]
  cases hr : a.ready with
  | false =>
    rw [answerTaken_notReady b rest s hr]
    exact ⟨⟨rfl, rfl, rfl, rfl⟩, rfl, h.stream⟩
  | true =>
    rw [hr, if_pos rfl] at hidx
    rw [answerTaken_ready b rest s hr] at hidx ⊢
    refine ⟨⟨rfl, rfl, rfl, rfl⟩, rfl, ?_⟩
    have hbyte : (sentEnvelope s)[s.tx.idx.toNat]? = some b := (txData_eq h.phase h.inv h.sum) ▸ hb
    simp only [setTx_tx, setTx_line, setLine_line] at hidx ⊢
    rw [hidx, List.take_add_one, hbyte, Option.toList_some, h.stream, List.append_assoc]

/-- A byte accepted before the last one: the call goes on. -/
theorem Sending.accept {base : List Byte} {s : State} {rest : List TxAnswer} (h : Sending base s)
    (ha : s.line.txAnswers = acceptAnswer :: rest) (hmore : s.tx.idx.toNat + 1 < s.tx.n.toNat + 4) :
    ∃ t, exec .writeFrame s = .next t ∧ Sending base t ∧ SameCall s t ∧ t.line.txAnswers = rest ∧
      t.tx.idx.toNat = s.tx.idx.toNat + 1 := by
  obtain ⟨t, hexec, hcall, hanswers, hstream⟩ := h.answer ha
  obtain ⟨t', b, hexec', -, -, hidx, -, hgoes, -⟩ :=
    acceptedByteJoinsTheStream s acceptAnswer rest h.phase h.inv ha rfl
  obtain rfl := Host.Outcome.next.inj (hexec.symm.trans hexec')
  obtain ⟨hphase, -⟩ := hgoes rfl (by omega)
  refine ⟨t, hexec, ⟨hphase, (execWriteFrame_next hexec).txInv h.inv,
    writeFrameKeepsItsRunningSum s t h.inv h.sum hexec, ?_⟩, hcall, hanswers, hidx⟩
  obtain ⟨-, -, henv, -⟩ := hcall
  rw [hstream, henv]

/-- As many accepted bytes as still leave the call in SEND. -/
theorem Sending.accepts {base : List Byte} {rest : List TxAnswer} (k : Nat) {s : State} (h : Sending base s)
    (ha : s.line.txAnswers = List.replicate k acceptAnswer ++ rest) (hmore : s.tx.idx.toNat + k < s.tx.n.toNat + 4) :
    ∃ t, turns .writeFrame k s = .next t ∧ Sending base t ∧ SameCall s t ∧ t.line.txAnswers = rest ∧
      t.tx.idx.toNat = s.tx.idx.toNat + k := by
  induction k generalizing s with
  | zero => exact ⟨s, rfl, h, .refl s, ha, rfl⟩
  | succ k ih =>
    obtain ⟨u, hexec, hu, hcall, hanswers, hidx⟩ := h.accept ha (by omega)
    obtain ⟨-, -, -, hn⟩ := id hcall
    obtain ⟨t, hturns, ht, hcall', hanswers', hidx'⟩ := ih hu hanswers (by rw [hidx, hn]; omega)
    exact ⟨t, (turns_succ hexec).trans hturns, ht, hcall.trans hcall', hanswers', by omega⟩

theorem turns_add {i : Instr} {j k : Nat} {s u : State} (h : turns i j s = .next u) :
    turns i (j + k) s = turns i k u := by
  induction j generalizing s with
  | zero =>
    cases h
    rw [Nat.zero_add]
  | succ j ih =>
    rw [Nat.succ_add]
    cases hx : exec i s with
    | next v => rw [turns_succ hx] at h ⊢; exact ih h
    | fault r => rw [turns, hx] at h; cases h
    | refused r => rw [turns, hx] at h; cases h

/-! ### The answers of a transport that answers `(w, e)` -/

/-- The answer `a` ends the write with the error `e`, or without one. -/
def EndsWith (e : Option Config.TErr) (a : TxAnswer) : Prop :=
  match e with
  | none => a.stop = true ∧ a.err = false
  | some c => a.stop = true ∧ a.err = true ∧ a.cause = c

/-- Every such transport accepts byte after byte and then gives one last answer: it stops, or accepts the last byte of
all. -/
theorem answersFor_eq {total w : Nat} (e : Option Config.TErr) (hw : w ≤ total) (htotal : 0 < total) :
    ∃ k a, answersFor total w e = List.replicate k acceptAnswer ++ [a] ∧ k < total ∧
      k + (if a.ready = true then 1 else 0) = w ∧
      (EndsWith e a ∨ e = none ∧ a = acceptAnswer ∧ k + 1 = total) := by
  obtain hlt | rfl := Nat.lt_or_eq_of_le hw
  · cases e with
    | none => exact ⟨w, ⟨false, true, false, ⟨0⟩⟩, by simp [answersFor, hlt], hlt, rfl, .inl ⟨rfl, rfl⟩⟩
    | some c => exact ⟨w, ⟨false, true, true, c⟩, by simp [answersFor, hlt], hlt, rfl, .inl ⟨rfl, rfl, rfl⟩⟩
  · obtain ⟨k, rfl⟩ := Nat.exists_eq_succ_of_ne_zero htotal.ne'
    cases e with
    | none => exact ⟨k, acceptAnswer, by simp [answersFor, List.replicate_succ'], by omega, rfl, .inr ⟨rfl, rfl, rfl⟩⟩
    | some c => exact ⟨k, ⟨true, true, true, c⟩, by simp [answersFor], by omega, rfl, .inl ⟨rfl, rfl, rfl⟩⟩

/-- The last answer ends the call, with the status and the cause it says (R125, R126). -/
theorem Sending.last {base : List Byte} {s : State} {a : TxAnswer} {rest : List TxAnswer} {e : Option Config.TErr}
    (h : Sending base s) (ha : s.line.txAnswers = a :: rest)
    (hend : EndsWith e a ∨ e = none ∧ a = acceptAnswer ∧ s.tx.idx.toNat + 1 = s.tx.n.toNat + 4) :
    ∃ t, exec .writeFrame s = .next t ∧ SameCall s t ∧ t.line.txAnswers = rest ∧
      t.line.txStream = base ++ (sentEnvelope s).take t.tx.idx.toNat ∧
      t.tx.idx.toNat = s.tx.idx.toNat + (if a.ready = true then 1 else 0) ∧ t.tx.phase = .done ∧
      (e = none → t.tx.status = .ok) ∧ ∀ c, e = some c → t.tx.status = .transportError ∧ t.tx.cause = c := by
  obtain ⟨t, hexec, hcall, hanswers, hstream⟩ := h.answer ha
  obtain ⟨t', hexec', hidx, herror, hstop, hlast, -⟩ := writeEndsAsTheTransportSays s a rest h.phase h.inv ha
  obtain rfl := Host.Outcome.next.inj (hexec.symm.trans hexec')
  refine ⟨t, hexec, hcall, hanswers, hstream, hidx, ?_⟩
  obtain hends | ⟨rfl, rfl, hfull⟩ := hend
  · cases e with
    | none =>
      obtain ⟨hst, her⟩ := hends
      obtain ⟨hphase, hstatus, -⟩ := hstop hst her
      exact ⟨hphase, fun _ => hstatus, fun c hc => (nomatch hc)⟩
    | some c =>
      obtain ⟨hst, her, rfl⟩ := hends
      obtain ⟨hphase, hstatus, hcause⟩ := herror hst her
      exact ⟨hphase, fun hc => (nomatch hc), fun c hc => ⟨hstatus, hcause.trans (Option.some.inj hc)⟩⟩
  · obtain ⟨hphase, hstatus, -⟩ := hlast rfl rfl (by omega)
    exact ⟨hphase, fun _ => hstatus, fun c hc => (nomatch hc)⟩

/-- An accepted request that is not over range starts sending. -/
theorem exec_writeFrame_request_short {s : State} (hp : s.tx.phase = .idle) (hreq : s.producer.wrReq = true)
    (hlen : (encodeFrame (frameOf s.producer.wrRecord s.txbuf)).length ≤ 65535) :
    ∃ u, exec .writeFrame s = .next u ∧ Sending s.line.txStream u ∧ u.line = s.line ∧ u.producer = s.producer ∧
      sentEnvelope u = envelope (encodeFrame (frameOf s.producer.wrRecord s.txbuf)) ∧
      u.tx.n.toNat = (encodeFrame (frameOf s.producer.wrRecord s.txbuf)).length ∧ u.tx.idx.toNat = 0 := by
  have hexec : exec .writeFrame s = .next (txAccept s) := by rw [exec_writeFrame_idle hp, if_pos hreq]
  have hinv := txInv_txAccept s
  rw [encodeFrame_frameOf_length] at hlen ⊢
  obtain ⟨hlong, -⟩ | ⟨-, heq⟩ := txAccept_cases s
  · omega
  · rw [heq] at hexec hinv
    exact ⟨_, hexec, ⟨rfl, hinv, fun _ => rfl, (List.append_nil _).symm⟩, rfl, rfl, rfl, rfl, rfl⟩

/-- A request that is over range is refused in its first turn, and the transport is not asked (R122). -/
theorem exec_writeFrame_request_long {s : State} (hp : s.tx.phase = .idle) (hreq : s.producer.wrReq = true)
    (hlen : 65535 < (encodeFrame (frameOf s.producer.wrRecord s.txbuf)).length) :
    ∃ u, exec .writeFrame s = .next u ∧ u.tx.phase = .done ∧ u.tx.idx = 0 ∧ u.tx.status = .valueOutOfRange ∧
      u.line = s.line ∧ u.producer = s.producer := by
  have hexec : exec .writeFrame s = .next (txAccept s) := by rw [exec_writeFrame_idle hp, if_pos hreq]
  rw [encodeFrame_frameOf_length] at hlen
  obtain ⟨-, heq⟩ | ⟨hshort, -⟩ := txAccept_cases s
  · rw [heq] at hexec
    exact ⟨_, hexec, rfl, rfl, rfl, rfl, rfl⟩
  · omega

theorem writeFrameRef_long {f : Frame} (w : Nat) (e : Option Config.TErr) (h : 65535 < (encodeFrame f).length) :
    writeFrameRef f w e = ⟨0, .valueOutOfRange, none, []⟩ := if_pos h

theorem writeFrameRef_none {f : Frame} (w : Nat) (h : (encodeFrame f).length ≤ 65535) :
    writeFrameRef f w none = ⟨w, .ok, none, (envelope (encodeFrame f)).take w⟩ := if_neg (not_lt.2 h)

theorem writeFrameRef_some {f : Frame} (w : Nat) (c : Config.TErr) (h : (encodeFrame f).length ≤ 65535) :
    writeFrameRef f w (some c) = ⟨w, .transportError, some c, (envelope (encodeFrame f)).take w⟩ :=
  if_neg (not_lt.2 h)

/-- A write that is not over range: one turn accepts, one turn for each accepted byte but the last answer's keeps
`Sending`, and the last answer ends the call. -/
theorem turns_writeFrame_short {s : State} {w : Nat} {e : Option Config.TErr} {more : List TxAnswer} {d : List Byte}
    (hp : s.tx.phase = .idle) (hreq : s.producer.wrReq = true)
    (hd : d = encodeFrame (frameOf s.producer.wrRecord s.txbuf)) (hlen : d.length ≤ 65535) (hw : w ≤ d.length + 4)
    (hanswers : s.line.txAnswers = answersFor (d.length + 4) w e ++ more) :
    ∃ k t, turns .writeFrame k s = .next t ∧ t.tx.phase = .done ∧ t.tx.idx.toNat = w ∧
      (e = none → t.tx.status = .ok) ∧ (∀ c, e = some c → t.tx.status = .transportError ∧ t.tx.cause = c) ∧
      t.line = { s.line with txAnswers := more, txStream := s.line.txStream ++ (envelope d).take w } ∧
      t.producer = s.producer := by
  subst hd
  obtain ⟨u, hexec, hsend, hline, hproducer, henv, hn, hidx⟩ := exec_writeFrame_request_short hp hreq hlen
  obtain ⟨k, a, hseq, hk, hcount, hend⟩ := answersFor_eq e hw (Nat.succ_pos _)
  rw [hseq, List.append_assoc, List.singleton_append, ← hline] at hanswers
  obtain ⟨v, hturns, hsend, hcall, hanswers, hidx'⟩ := hsend.accepts k hanswers (by omega)
  obtain ⟨hitems, hprod, henv', hn'⟩ := hcall
  rw [← hn, ← hn'] at hend
  obtain ⟨t, hexec', ⟨hitems', hprod', -, -⟩, hanswers, hstream, hidx'', hphase, hok, herr⟩ :=
    hsend.last (e := e) hanswers (by rwa [hidx', hidx, Nat.zero_add])
  have hrun : turns .writeFrame (k + 1 + 1) s = .next t := by
    rw [turns_succ hexec, turns_add hturns, turns_one hexec']
  have hw : t.tx.idx.toNat = w := by omega
  rw [hw, henv', henv] at hstream
  refine ⟨_, t, hrun, hphase, hw, hok, herr, ?_, by rw [hprod', hprod, hproducer]⟩
  show t.line = ⟨s.line.rxItems, more, s.line.txStream ++ _⟩
  rw [← hstream, ← hanswers, ← hline, ← hitems, ← hitems']

/-- Settles O50: over range, the first turn refuses; else the turns send what the transport accepts. -/
theorem writeFrameTurnsComputeTheReference : Obligations.WriteFrameTurnsComputeTheReference := by
  rintro s w e more f n hp hreq rfl rfl hw hanswers
  obtain hlong | hshort := Nat.lt_or_ge 65535 (encodeFrame (frameOf s.producer.wrRecord s.txbuf)).length
  · rw [if_pos hlong, List.nil_append] at hanswers
    obtain ⟨u, hexec, hphase, hidx, hstatus, hline, hproducer⟩ := exec_writeFrame_request_long hp hreq hlong
    rw [writeFrameRef_long w e hlong]
    refine ⟨1, u, turns_one hexec, hphase, congrArg BitVec.toNat hidx, hstatus, fun c hc => (nomatch hc), ?_, hproducer⟩
    rw [List.append_nil, hline, ← hanswers]
  · rw [if_neg (not_lt.2 hshort)] at hanswers
    obtain ⟨k, t, hrun, hphase, hidx, hok, herr, hline, hproducer⟩ :=
      turns_writeFrame_short hp hreq rfl hshort hw hanswers
    cases e with
    | none =>
      rw [writeFrameRef_none w hshort]
      exact ⟨k, t, hrun, hphase, hidx, hok rfl, fun c hc => (nomatch hc), hline, hproducer⟩
    | some c =>
      obtain ⟨hstatus, hcause⟩ := herr c rfl
      rw [writeFrameRef_some w c hshort]
      exact ⟨k, t, hrun, hphase, hidx, hstatus, fun c' hc => hcause.trans (Option.some.inj hc), hline, hproducer⟩

end Sys2Proof.Machine
end

section
/-!
PROOFS. What every step keeps: the invariant of the registers (spec 10_state.md R15, R17) and of the buffers, that no
operation stops in it, and who emits events (R146).
-/

namespace Sys2Proof.Machine

/-! ### R15 through a turn of READFRAME -/

/-- R15 speaks of the receive registers and of `rxbuf`. -/
theorem rxInv_congr {s t : State} (hrx : t.rx = s.rx) (hbuf : t.rxbuf = s.rxbuf) : RxInv t ↔ RxInv s := by
  simp only [RxInv, sumRight, collected, candidate, hrx, hbuf]

/-- R17 speaks of the transmit registers. -/
theorem txInv_congr {s t : State} (htx : t.tx = s.tx) : TxInv t ↔ TxInv s := by
  simp only [TxInv, htx]

/-- A byte stored at the count extends what has been collected (R104). -/
theorem collected_store {m : Memory} {n : Nat} (b : Byte) (h : ∀ i, i < n → (m.byteAt i).isSome = true) :
    ∀ i, i < n + 1 → ((m.store n b).byteAt i).isSome = true := by
  intro i hi
  obtain rfl | hne := eq_or_ne i n
  · rw [Memory.byteAt_store_same]; rfl
  · rw [Memory.byteAt_store_other m b hne]
    exact h i (by omega)

/-- R15 in either phase that RX.LEN_LO and RX.DATA lead to, DATA exactly while bytes are missing. -/
theorem rxInv_of_collecting {s : State} (hp : s.rx.phase = if s.rx.cnt = s.rx.len then .csum else .data)
    (hle : s.rx.cnt.toNat ≤ s.rx.len.toNat) (hsum : sumRight s) (hcol : collected s) : RxInv s := by
  split_ifs at hp with heq <;> rw [RxInv, hp]
  · exact ⟨heq, hsum, hcol⟩
  · have hlt : s.rx.cnt.toNat < s.rx.len.toNat := lt_of_le_of_ne hle fun h => heq (BitVec.eq_of_toNat_eq h)
    exact ⟨by omega, hlt, hsum, hcol⟩

/-- Frame data that decodes is not empty. -/
theorem length_pos_of_decodeFrame {d : List Byte} {f : Frame} (h : decodeFrame d = .ok f) : 1 ≤ d.length :=
  ((exists_decodeFrame_eq_ok_iff d).1 ⟨f, h⟩).1

theorem RxTurn.rxInv {s t : State} (h : RxTurn s t) (hinv : RxInv s) : RxInv t := by
  cases h with
  | waits => exact hinv
  | request => exact trivial
  | taken => exact trivial
  | error => exact fun hok => RxStatus.noConfusion hok
  | hunt b rest _ _ =>
    unfold rxHunt
    split_ifs <;> exact trivial
  | lenHi => exact trivial
  | lenLo b rest _ _ =>
    refine rxInv_of_collecting ?_ (Nat.zero_le _) rfl fun i hi => absurd hi (Nat.not_lt_zero i)
    exact if_congr eq_comm rfl rfl
  | data b rest hp _ hk =>
    rw [RxInv, hp] at hinv
    obtain ⟨-, hlt, hsum, hcol⟩ := hinv
    have hcnt := cnt_succ_toNat hlt
    refine rxInv_of_collecting rfl (hcnt.trans_le hlt) ?_ ?_
    · show s.rx.sum + b = sum8 (rxBytes (s.rxbuf.store s.rx.cnt.toNat b) (s.rx.cnt + 1).toNat)
      rw [hcnt, rxBytes_store, sum8_append, sum8_cons, sum8_nil, add_zero, ← hsum]
    · show ∀ i, i < (s.rx.cnt + 1).toNat → _
      rw [hcnt]
      exact collected_store b hcol
  | csum c rest hp _ =>
    rw [RxInv, hp] at hinv
    obtain ⟨hcnt, -, hcol⟩ := hinv
    obtain ⟨hj, h⟩ | ⟨e, -, h⟩ := rxCsum_cases c (s.setItems rest) <;> rw [h]
    · obtain ⟨-, f, hd⟩ := judge_eq_none.1 hj
      refine fun _ => ⟨hcnt, ?_, hcol, f, hd⟩
      simpa [candidate] using length_pos_of_decodeFrame hd
    · exact trivial

/-- A store by RX.DATA is below the buffer's end. -/
theorem RxTurn.rxbuf_wf {s t : State} (h : RxTurn s t) (hwf : s.rxbuf.wf = true) : t.rxbuf.wf = true := by
  cases h with
  | hunt => rw [rxHunt_eq]; exact hwf
  | data b rest _ _ hk => exact Memory.wf_store b hwf hk
  | csum => rw [rxCsum_eq]; exact hwf
  | _ => exact hwf

/-! ### The invariant through every step -/

theorem blockInv_congr {s t : State} (hrx : t.rx = s.rx) (htx : t.tx = s.tx) (hrxbuf : t.rxbuf = s.rxbuf)
    (htxbuf : t.txbuf = s.txbuf) : BlockInv t ↔ BlockInv s := by
  rw [BlockInv, BlockInv, rxInv_congr hrx hrxbuf, txInv_congr htx, BuffersWf, BuffersWf, hrxbuf, htxbuf]

theorem RxTurn.blockInv {s t : State} (h : RxTurn s t) (hinv : BlockInv s) : BlockInv t := by
  obtain ⟨hrx, htx, hrxbuf, htxbuf⟩ := hinv
  have htx' : t.tx = s.tx := by rw [h.eq_withRx]; rfl
  have htxbuf' : t.txbuf = s.txbuf := by rw [h.eq_withRx]; rfl
  exact ⟨h.rxInv hrx, (txInv_congr htx').2 htx, h.rxbuf_wf hrxbuf, htxbuf' ▸ htxbuf⟩

theorem TxTurn.blockInv {s t : State} (h : TxTurn s t) (hinv : BlockInv s) : BlockInv t := by
  obtain ⟨hrx, htx, hrxbuf, htxbuf⟩ := hinv
  have hrx' : t.rx = s.rx := by rw [h.eq_withTx]; rfl
  have hrxbuf' : t.rxbuf = s.rxbuf := by rw [h.eq_withTx]; rfl
  exact ⟨(rxInv_congr hrx' hrxbuf').2 hrx, h.txInv htx, hrxbuf' ▸ hrxbuf, h.txbuf ▸ htxbuf⟩

theorem exec_reset_blockInv {s t : State} (h : exec .reset s = .next t) (hinv : BlockInv s) : BlockInv t := by
  obtain ⟨-, -, hbufs⟩ := hinv
  rw [exec_reset] at h
  cases h
  exact ⟨trivial, trivial, hbufs⟩

theorem exec_blockInv {i : Instr} {s t : State} (h : exec i s = .next t) (hinv : BlockInv s) : BlockInv t := by
  obtain ⟨g, hg⟩ | ⟨data, csum, rfl⟩ | rfl | rfl | rfl := exec_cases i
  · rw [hg] at h
    cases h
    exact hinv
  · cases h
    exact hinv
  · exact (execReadFrame_next h).blockInv hinv
  · exact (execWriteFrame_next h).blockInv hinv
  · exact exec_reset_blockInv h hinv

theorem envMove_blockInv {m : EnvMove} {s t : State} (h : envMove m s = .next t) (hinv : BlockInv s) : BlockInv t := by
  obtain ⟨hrx, htx, hrxbuf, -, htxbuf | ⟨a, v, ha, htxbuf⟩⟩ := envMove_next h
  · exact (blockInv_congr hrx htx hrxbuf htxbuf).2 hinv
  · obtain ⟨hR, hT, hwr, hwt⟩ := hinv
    exact ⟨(rxInv_congr hrx hrxbuf).2 hR, (txInv_congr htx).2 hT, hrxbuf ▸ hwr, htxbuf ▸ Memory.wf_store v hwt ha⟩

/-- Settles O58 by the ways a step answers next: RESET, nobody moves, an environment move, an operation. -/
theorem everyStepKeepsBlockInv : Obligations.EveryStepKeepsBlockInv := by
  intro s t hinv h
  obtain ⟨-, h⟩ | ⟨-, -, rfl⟩ | ⟨m, rest, -, -, h⟩ | ⟨w, rest, i, -, -, -, h⟩ := step_next h
  · exact exec_reset_blockInv h hinv
  · exact hinv
  · exact envMove_blockInv h hinv
  · exact exec_blockInv h hinv

/-! ### No operation stops in a state of the invariant -/

theorem exists_rxByteTaken {s : State} (hp : s.rx.phase ≠ .data) (b : Byte) : ∃ t, rxByteTaken b s = .next t := by
  unfold rxByteTaken
  cases h : s.rx.phase with
  | data => exact absurd h hp
  | _ => exact ⟨_, rfl⟩

/-- Only RX.DATA can fault, and R15 keeps its offset inside the buffer. -/
theorem exists_exec_readFrame {s : State} (hinv : RxInv s) : ∃ t, exec .readFrame s = .next t := by
  by_cases hr : rxReady s = true
  · cases hi : s.line.rxItems with
    | nil => exact ⟨s, exec_readFrame_blocked hr hi⟩
    | cons x rest =>
      cases x with
      | err e => exact ⟨_, exec_readFrame_err hr hi⟩
      | byte b =>
        by_cases hp : s.rx.phase = .data
        · rw [RxInv, hp] at hinv
          obtain ⟨-, hlt, -⟩ := hinv
          exact ⟨_, (exec_readFrame_data hp hi).trans (rxData_setItems b s rest (cnt_lt_bufSize hlt))⟩
        · rw [exec_readFrame_byte hr hi]
          exact exists_rxByteTaken (s := s.setItems rest) hp b
  · rw [rxReady_iff, not_and_or, not_not, not_not] at hr
    obtain hp | hp := hr
    · rw [exec_readFrame_idle hp]
      split_ifs <;> exact ⟨_, rfl⟩
    · rw [exec_readFrame_done hp]
      split_ifs <;> exact ⟨_, rfl⟩

/-- Only an answer in SEND can fault, and R17 keeps the index inside the envelope. -/
theorem exists_exec_writeFrame {s : State} (hinv : TxInv s) : ∃ t, exec .writeFrame s = .next t := by
  cases hp : s.tx.phase with
  | idle =>
    rw [exec_writeFrame_idle hp]
    split_ifs <;> exact ⟨_, rfl⟩
  | send =>
    cases ha : s.line.txAnswers with
    | nil => exact ⟨s, exec_writeFrame_blocked hp ha⟩
    | cons a rest =>
      obtain ⟨b, hb⟩ := exists_txData_of_txInv hp hinv
      exact ⟨_, exec_writeFrame_answer hp ha hb⟩
  | done =>
    rw [exec_writeFrame_done hp]
    split_ifs <;> exact ⟨_, rfl⟩

/-- Settles O59: only the two sequencers could fault, and R15 and R17 exclude it. -/
theorem everyOperationCompletes : Obligations.EveryOperationCompletes := by
  rintro i s ⟨hrx, htx, -⟩
  obtain ⟨g, hg⟩ | ⟨data, csum, rfl⟩ | rfl | rfl | rfl := exec_cases i
  · exact ⟨_, hg s⟩
  · exact ⟨_, rfl⟩
  · exact exists_exec_readFrame hrx
  · exact exists_exec_writeFrame htx
  · exact ⟨_, exec_reset s⟩

/-! ### Events (R146) -/

theorem decodeKind_ne_readFrame (r : PortRecord) : decodeKind r ≠ .readFrame := by
  unfold decodeKind
  split_ifs <;> exact Instr.noConfusion

/-- Only the receive port's handshake selects READFRAME (R50). -/
theorem eq_receive_of_decode {w : Selection} (h : decode w = .ok .readFrame) : w = .port .receive := by
  obtain ⟨-, honly, -⟩ := selectionHasOneMeaning w .readFrame h
  refine (honly ?_).symm
  rintro r rfl
  exact decodeKind_ne_readFrame r (Except.ok.inj h)

/-- No operation but READFRAME touches the events. -/
theorem exec_events {i : Instr} {s t : State} (hi : i ≠ .readFrame) (h : exec i s = .next t) : t.events = s.events := by
  obtain ⟨g, hg⟩ | ⟨data, csum, rfl⟩ | rfl | rfl | rfl := exec_cases i
  · rw [hg] at h
    cases h
    rfl
  · cases h
    rfl
  · exact absurd rfl hi
  · rw [(execWriteFrame_next h).eq_withTx]
    rfl
  · cases h
    rfl

theorem evOut_eq_singleton {s t : State} {e : Event} (h : t.events = s.events ++ [e]) : evOut s t = [e.code] := by
  rw [evOut, h, List.drop_left, List.map_singleton]

/-- Settles O52: of the ways a step answers next only a turn of READFRAME touches the events, and only by a discard. -/
theorem onlyDiscardsEmitEvents : Obligations.OnlyDiscardsEmitEvents := by
  intro s t h
  obtain ⟨-, h⟩ | ⟨-, -, rfl⟩ | ⟨m, rest, -, -, h⟩ | ⟨w, rest, i, -, ha, hd, h⟩ := step_next h
  · exact .inl ((exec_events Instr.noConfusion h).trans (setRst_events s false))
  · exact .inl rfl
  · obtain ⟨-, -, -, hevents, -⟩ := envMove_next h
    exact .inl hevents
  · by_cases hi : i = .readFrame
    · subst hi
      refine (execReadFrame_next h).events.imp_right fun ⟨hcsum, hhunt, e, he⟩ => ?_
      exact ⟨e, he, evOut_eq_singleton he, hcsum, hhunt, rest, ha.trans (by rw [eq_receive_of_decode hd])⟩
    · exact .inl ((exec_events hi h).trans (setAgenda_events s rest))

end Sys2Proof.Machine
end

section
/-!
PROOFS. Independence (spec 20_memory.md R42, 60_exceptions.md R146): each sequencer's turn depends on its own side of
the state alone, so the two commute, and no operation reads the events or the result port. Then the canonical form of a
buffer.
-/

namespace Sys2Proof.Machine

/-! ### A turn of READFRAME depends on the receive side alone -/

/-- READFRAME does the same in every state `u` with the receive side of `s`, where it appends the events `new`. -/
def ReadsRxSideOnly (s t : State) (new : List Event) : Prop :=
  t.events = s.events ++ new ∧
    ∀ u : State, exec .readFrame (u.withRx s) = .next ((u.withRx t).setEvents (u.events ++ new))

/-- A turn that emits nothing. -/
theorem readsRxSideOnly_quiet {s t : State} (hevents : t.events = s.events)
    (h : ∀ u : State, exec .readFrame (u.withRx s) = .next (u.withRx t)) : ReadsRxSideOnly s t [] := by
  refine ⟨by rw [hevents, List.append_nil], fun u => ?_⟩
  rw [h, List.append_nil]
  rfl

/-- A byte taken, phase by phase. -/
theorem exists_readsRxSideOnly_byte {s t : State} {b : Byte} {rest : List Item} (hr : rxReady s = true)
    (hi : s.line.rxItems = .byte b :: rest) (h : exec .readFrame s = .next t) : ∃ new, ReadsRxSideOnly s t new := by
  obtain ⟨hidle, hdone⟩ := (rxReady_iff s).1 hr
  cases hp : s.rx.phase with
  | idle => exact absurd hp hidle
  | done => exact absurd hp hdone
  | hunt =>
    rw [exec_readFrame_hunt hp hi, rxHunt_eq] at h
    cases h
    exact ⟨[], readsRxSideOnly_quiet rfl fun u => by rw [exec_readFrame_hunt (s := u.withRx s) hp hi, rxHunt_eq]; rfl⟩
  | lenHi =>
    rw [exec_readFrame_lenHi hp hi] at h
    cases h
    exact ⟨[], readsRxSideOnly_quiet rfl fun u => exec_readFrame_lenHi (s := u.withRx s) hp hi⟩
  | lenLo =>
    rw [exec_readFrame_lenLo hp hi] at h
    cases h
    exact ⟨[], readsRxSideOnly_quiet rfl fun u => exec_readFrame_lenLo (s := u.withRx s) hp hi⟩
  | data =>
    have hk : s.rx.cnt.toNat < Config.bufSize := (rxData_next ((exec_readFrame_data hp hi).symm.trans h)).1
    rw [exec_readFrame_data hp hi, rxData_setItems b s rest hk] at h
    cases h
    exact ⟨[], readsRxSideOnly_quiet rfl fun u =>
      (exec_readFrame_data (s := u.withRx s) hp hi).trans (rxData_setItems b (u.withRx s) rest hk)⟩
  | csum =>
    rw [exec_readFrame_csum hp hi, rxCsum_eq] at h
    cases h
    refine ⟨_, rfl, fun u => ?_⟩
    rw [exec_readFrame_csum (s := u.withRx s) hp hi, rxCsum_eq]
    rfl

theorem exists_readsRxSideOnly {s t : State} (h : exec .readFrame s = .next t) : ∃ new, ReadsRxSideOnly s t new := by
  by_cases hr : rxReady s = true
  · cases hi : s.line.rxItems with
    | nil =>
      rw [exec_readFrame_blocked hr hi] at h
      cases h
      exact ⟨[], readsRxSideOnly_quiet rfl fun u => exec_readFrame_blocked (s := u.withRx s) hr hi⟩
    | cons x rest =>
      cases x with
      | err e =>
        rw [exec_readFrame_err hr hi] at h
        cases h
        exact ⟨[], readsRxSideOnly_quiet rfl fun u => exec_readFrame_err (s := u.withRx s) hr hi⟩
      | byte b => exact exists_readsRxSideOnly_byte hr hi h
  · rw [rxReady_iff, not_and_or, not_not, not_not] at hr
    refine ⟨[], ?_⟩
    obtain hp | hp := hr
    · rw [exec_readFrame_idle hp] at h
      split_ifs at h with hreq <;> cases h
      · exact readsRxSideOnly_quiet rfl fun u => (exec_readFrame_idle (s := u.withRx s) hp).trans (if_pos hreq)
      · exact readsRxSideOnly_quiet rfl fun u => (exec_readFrame_idle (s := u.withRx s) hp).trans (if_neg hreq)
    · rw [exec_readFrame_done hp] at h
      split_ifs at h with hready <;> cases h
      · exact readsRxSideOnly_quiet rfl fun u => (exec_readFrame_done (s := u.withRx s) hp).trans (if_pos hready)
      · exact readsRxSideOnly_quiet rfl fun u => (exec_readFrame_done (s := u.withRx s) hp).trans (if_neg hready)

/-! ### A turn of WRITEFRAME depends on the transmit side alone -/

theorem txAccept_withTx (s u : State) : txAccept (u.withTx s) = u.withTx (txAccept s) := by
  have hproducer : (u.withTx s).producer = s.producer := rfl
  simp only [txAccept, hproducer]
  split_ifs <;> rfl

theorem answerTaken_withTx (a : TxAnswer) (b : Byte) (rest : List TxAnswer) (s u : State) :
    answerTaken a b rest (u.withTx s) = u.withTx (answerTaken a b rest s) := by
  cases h : a.ready with
  | true => rw [answerTaken_ready b rest _ h, answerTaken_ready b rest _ h]; rfl
  | false => rw [answerTaken_notReady b rest _ h, answerTaken_notReady b rest _ h]; rfl

theorem txEnd_withTx (a : TxAnswer) (s u : State) : txEnd a (u.withTx s) = u.withTx (txEnd a s) := by
  have hregs : (u.withTx s).tx = s.tx := rfl
  simp only [txEnd, hregs]
  split_ifs <;> rfl

theorem exec_writeFrame_outside {s : State} {a : TxAnswer} {rest : List TxAnswer} (hp : s.tx.phase = .send)
    (ha : s.line.txAnswers = a :: rest) (hb : txData s = none) : exec .writeFrame s = .fault .txIndexOutside := by
  rw [txData, if_pos hp] at hb
  rw [exec_writeFrame_send hp, txSend, ha]
  simp only [txAnswered, setAnswers_eq, setLine_tx, setLine_txbuf, hb]

theorem exec_writeFrame_withTx {s t : State} (h : exec .writeFrame s = .next t) (u : State) :
    exec .writeFrame (u.withTx s) = .next (u.withTx t) := by
  cases hp : s.tx.phase with
  | idle =>
    rw [exec_writeFrame_idle hp] at h
    rw [exec_writeFrame_idle (s := u.withTx s) hp, txAccept_withTx]
    split_ifs at h with hreq <;> cases h
    · exact if_pos hreq
    · exact if_neg hreq
  | send =>
    cases ha : s.line.txAnswers with
    | nil =>
      rw [exec_writeFrame_blocked hp ha] at h
      cases h
      exact exec_writeFrame_blocked (s := u.withTx s) hp ha
    | cons a rest =>
      cases hb : txData s with
      | none => rw [exec_writeFrame_outside hp ha hb] at h; cases h
      | some b =>
        rw [exec_writeFrame_answer hp ha hb] at h
        cases h
        rw [exec_writeFrame_answer (s := u.withTx s) hp ha hb, answerTaken_withTx, txEnd_withTx]
  | done =>
    rw [exec_writeFrame_done hp] at h
    rw [exec_writeFrame_done (s := u.withTx s) hp]
    split_ifs at h with hready <;> cases h
    · exact if_pos hready
    · exact if_neg hready

/-! ### The two sequencers commute (R42) -/

theorem RxTurn.setEvents_eq {s t : State} (h : RxTurn s t) (es : List Event) :
    t.setEvents es = (s.withRx t).setEvents es := by
  conv_lhs => rw [h.eq_withRx]
  rfl

/-- READFRAME leaves the transmit side. -/
theorem RxTurn.withTx_self {s t : State} (h : RxTurn s t) : t.withTx s = t := by
  rw [h.eq_withRx]
  rfl

/-- WRITEFRAME leaves the receive side. -/
theorem TxTurn.withRx_self {s t : State} (h : TxTurn s t) : t.withRx s = t := by
  rw [h.eq_withTx]
  rfl

/-- Settles O54: each turn finds its own side as it was before the other's turn. -/
theorem sequencersCommute : Obligations.SequencersCommute := by
  intro s a b ha hb
  have hturnA : RxTurn s a := execReadFrame_next ha
  have hturnB : TxTurn s b := execWriteFrame_next hb
  obtain ⟨new, hnew, hread⟩ := exists_readsRxSideOnly ha
  have hwrite := exec_writeFrame_withTx hb a
  have hread := hread b
  rw [hturnA.withTx_self] at hwrite
  rw [hturnB.withRx_self] at hread
  have hsame : (b.withRx a).setEvents (b.events ++ new) = a.withTx b := by
    rw [hturnB.eq_withTx, hturnA.eq_withRx, hnew]
    rfl
  exact ⟨a.withTx b, hwrite, hread.trans (congrArg _ hsame)⟩

/-! ### Nothing reads the events or the result port (R146) -/

/-- Settles O53: a function returns the same value of the same `txbuf`; a turn of a sequencer depends on its own side,
to which neither the events nor the result port belong; the rest writes fixed values. -/
theorem noOperationReadsEventsOrResults : Obligations.NoOperationReadsEventsOrResults := by
  intro i s t h
  obtain ⟨g, hg⟩ | ⟨data, csum, rfl⟩ | rfl | rfl | rfl := exec_cases i
  · rw [hg] at h
    cases h
    exact ⟨[], some (g s.txbuf), fun es v => by rw [hg, List.append_nil]; rfl⟩
  · cases h
    exact ⟨[], none, fun es v => by rw [List.append_nil]; rfl⟩
  · obtain ⟨new, -, hread⟩ := exists_readsRxSideOnly h
    refine ⟨new, none, fun es v => (hread ((s.setEvents es).setFnOut v)).trans ?_⟩
    rw [(execReadFrame_next h).setEvents_eq]
    rfl
  · refine ⟨[], none, fun es v => (exec_writeFrame_withTx h ((s.setEvents es).setFnOut v)).trans ?_⟩
    rw [List.append_nil]
    conv_rhs => rw [(execWriteFrame_next h).eq_withTx]
    rfl
  · cases h
    exact ⟨[], none, fun es v => by rw [exec_reset, List.append_nil]; rfl⟩

/-! ### A buffer's list is determined by what it lists -/

theorem Memory.byteAt_eq_none {m : Memory} {a : Nat} (h : ∀ c ∈ m, a < c.1) : m.byteAt a = none := by
  induction m with
  | nil => rfl
  | cons c m ih =>
    obtain ⟨hc, hm⟩ := List.forall_mem_cons.1 h
    rw [Memory.byteAt_cons, if_neg hc.ne', ih hm]

theorem Memory.byteAt_head (c : Host.Cell) (m : Memory) : Memory.byteAt (c :: m) c.1 = some c.2 := by
  rw [Memory.byteAt_cons, if_pos rfl]

/-- The first offset listed is the least, so it cannot lie above one that is listed. -/
theorem Memory.head_le_of_byteAt {c : Host.Cell} {m : Memory} {a : Nat} {b : Byte}
    (hm : (c :: m).Pairwise (fun c d => c.1 < d.1)) (h : Memory.byteAt (c :: m) a = some b) : c.1 ≤ a := by
  by_contra hlt
  have hall : ∀ d ∈ c :: m, a < d.1 := List.forall_mem_cons.2
    ⟨not_le.1 hlt, fun d hd => (not_le.1 hlt).trans ((List.pairwise_cons.1 hm).1 d hd)⟩
  rw [Memory.byteAt_eq_none hall] at h
  cases h

theorem Memory.eq_of_byteAt {m m' : Memory} (hm : m.Pairwise (fun c d => c.1 < d.1))
    (hm' : m'.Pairwise (fun c d => c.1 < d.1)) (h : ∀ a, m.byteAt a = m'.byteAt a) : m = m' := by
  induction m generalizing m' with
  | nil =>
    cases m' with
    | nil => rfl
    | cons c' m' => exact absurd ((h c'.1).trans (Memory.byteAt_head c' m')) (Option.some_ne_none c'.2).symm
  | cons c m ih =>
    cases m' with
    | nil => exact absurd ((h c.1).symm.trans (Memory.byteAt_head c m)) (Option.some_ne_none c.2).symm
    | cons c' m' =>
      have hfirst : c.1 = c'.1 := le_antisymm
        (Memory.head_le_of_byteAt hm ((h c'.1).trans (Memory.byteAt_head c' m')))
        (Memory.head_le_of_byteAt hm' ((h c.1).symm.trans (Memory.byteAt_head c m)))
      have hbyte : c.2 = c'.2 := by
        have hread := h c.1
        rw [Memory.byteAt_head, hfirst, Memory.byteAt_head] at hread
        exact Option.some.inj hread
      obtain ⟨hlow, hm⟩ := List.pairwise_cons.1 hm
      obtain ⟨hlow', hm'⟩ := List.pairwise_cons.1 hm'
      rw [Prod.ext hfirst hbyte, ih hm hm' fun a => ?_]
      by_cases ha : c.1 = a
      · subst ha
        rw [Memory.byteAt_eq_none hlow, Memory.byteAt_eq_none (hfirst ▸ hlow')]
      · have hread := h a
        rwa [Memory.byteAt_cons, Memory.byteAt_cons, if_neg ha, if_neg (hfirst ▸ ha)] at hread

/-- Settles O60: the least offsets agree, and so on down the list. -/
theorem memoriesThatReadAlikeAreEqual : Obligations.MemoriesThatReadAlikeAreEqual :=
  fun m m' hm hm' => Memory.eq_of_byteAt ((Memory.wf_iff m).1 hm).1 ((Memory.wf_iff m').1 hm').1

end Sys2Proof.Machine
end

section
/-!
PROOFS. READFRAME as one function (spec 43_framestream_rx.md R112): what it finds in a sequence of items (R62, R113,
R114, R165), and FRAME, which delivers one envelope (R51).
-/

namespace Sys2Proof.Machine

/-! ### The steps of the reference function on items that are bytes -/

/-- Bytes as items. -/
def byteItems (bs : List Byte) : List Item := bs.map .byte

@[simp] theorem byteItems_nil : byteItems [] = [] := rfl

@[simp] theorem byteItems_cons (b : Byte) (bs : List Byte) : byteItems (b :: bs) = .byte b :: byteItems bs := rfl

@[simp] theorem byteItems_append (bs cs : List Byte) : byteItems (bs ++ cs) = byteItems bs ++ byteItems cs :=
  List.map_append

theorem nextBytes_byteItems (bs : List Byte) (rest : List Item) :
    nextBytes bs.length (byteItems bs ++ rest) = .got bs rest := by
  induction bs with
  | nil => rfl
  | cons b bs ih =>
    simp only [List.length_cons, nextBytes, byteItems_cons, List.cons_append, nextByte, Taking.andThen, ih]

theorem nextBytes_short {bs : List Byte} {n : Nat} (h : bs.length < n) : nextBytes n (byteItems bs) = .blocked := by
  induction bs generalizing n with
  | nil =>
    cases n with
    | zero => exact absurd h (Nat.not_lt_zero _)
    | succ n => rfl
  | cons b bs ih =>
    cases n with
    | zero => exact absurd h (Nat.not_lt_zero _)
    | succ n =>
      simp only [nextBytes, byteItems_cons, nextByte, Taking.andThen, ih (Nat.lt_of_succ_lt_succ h)]

theorem hunt_garbage {garbage : List Byte} (h : (0x7E : Byte) ∉ garbage) (rest : List Item) :
    hunt (byteItems garbage ++ rest) = hunt rest := by
  induction garbage with
  | nil => rfl
  | cons b bs ih =>
    obtain ⟨hb, hbs⟩ := not_or.1 (mt List.mem_cons.2 h)
    rw [byteItems_cons, List.cons_append, hunt, if_neg (Ne.symm hb), ih hbs]

/-- Garbage without a delimiter is skipped (R101). -/
theorem nextCandidate_garbage {garbage : List Byte} (h : (0x7E : Byte) ∉ garbage) (rest : List Item) :
    nextCandidate (byteItems garbage ++ rest) = nextCandidate rest := by
  rw [nextCandidate, hunt_garbage h, nextCandidate]

/-- After a delimiter two bytes are a length, that many are data whatever their values, and one more is the checksum
(R62, R165). -/
theorem nextCandidate_delim {h l : Byte} {data : List Byte} (c : Byte) (rest : List Item)
    (hlen : (dec16 h l).toNat = data.length) :
    nextCandidate (byteItems ([0x7E, h, l] ++ data ++ [c]) ++ rest) = .got (data, c) rest := by
  simp only [byteItems_append, byteItems_cons, byteItems_nil, List.append_assoc, List.cons_append, List.nil_append]
  rw [nextCandidate, hunt, if_pos rfl]
  simp only [Taking.andThen, nextByte, hlen, nextBytes_byteItems]

/-- With fewer items than the length asks for the candidate is not complete (R114(a)). -/
theorem nextCandidate_short {h l : Byte} {short : List Byte} (hlen : short.length < (dec16 h l).toNat + 1) :
    nextCandidate (byteItems ([0x7E, h, l] ++ short)) = .blocked := by
  simp only [byteItems_cons, List.cons_append, List.nil_append]
  rw [nextCandidate, hunt, if_pos rfl]
  simp only [Taking.andThen, nextByte]
  obtain hlt | heq := Nat.lt_or_eq_of_le (Nat.le_of_lt_succ hlen)
  · rw [nextBytes_short hlt]
  · have hall := nextBytes_byteItems short []
    rw [List.append_nil, heq] at hall
    rw [hall]

/-- Settles O39 by what the reference function finds after a delimiter. -/
theorem strayDelimiterSwallowsWhatFollows : Obligations.StrayDelimiterSwallowsWhatFollows := by
  intro h l c span rest hlen
  rw [← dec16_toNat] at hlen ⊢
  exact ⟨nextCandidate_delim c rest hlen.symm, fun short hshort => nextCandidate_short hshort⟩

/-! ### FRAME -/

theorem enc16_eq_div_mod (n : Nat) : enc16 n = [BitVec.ofNat 8 (n / 256), BitVec.ofNat 8 (n % 256)] := by
  rw [enc16, show BitVec.ofNat 8 n = BitVec.ofNat 8 (n % 256) by bv_omega]

/-- The envelope of `d` with any checksum byte is found again (R59). -/
theorem nextCandidate_envelope {d : List Byte} (c : Byte) (rest : List Item) (h : d.length ≤ 65535) :
    nextCandidate (byteItems ([0x7E] ++ enc16 d.length ++ d ++ [c]) ++ rest) = .got (d, c) rest :=
  nextCandidate_delim c rest (dec16_enc16_toNat h)

/-- FRAME appends its envelope to the items the transport holds (R40, R51). -/
theorem exec_frame (d : List Byte) (c : Byte) (s : State) : exec (.frame d c) s = .next (s.setLine { s.line with
    rxItems := s.line.rxItems ++ byteItems ([0x7E] ++ enc16 d.length ++ d ++ [c]) }) := by
  show execFrame d c s = _
  rw [execFrame, setItems_eq, pack_byte, pack_bytes, pack_bytes, pack_byte, pack_nil, List.append_assoc,
    List.append_assoc]
  rfl

/-- Settles O23: the items are the envelope's bytes, and the reference function finds data and checksum again. -/
theorem frameBytesArriveInEnvelopeOrder : Obligations.FrameBytesArriveInEnvelopeOrder := by
  intro d c s hlen
  have hhead : [0x7E, BitVec.ofNat 8 (d.length / 256), BitVec.ofNat 8 (d.length % 256)] = [0x7E] ++ enc16 d.length := by
    rw [enc16_eq_div_mod]
    rfl
  rw [hhead]
  exact ⟨exec_frame d c s, fun rest => nextCandidate_envelope c rest hlen⟩

/-! ### READFRAME on one candidate frame -/

theorem readLoop_accept {fuel : Nat} {es : List Event} {items rest : List Item} {d : List Byte} {c : Byte} {f : Frame}
    (hnext : nextCandidate items = .got (d, c) rest) (hv : verify d c = true) (hd : decodeFrame d = .ok f) :
    readLoop (fuel + 1) es items = some ⟨.frame f, es, rest⟩ := by
  simp only [readLoop, hnext, hv, hd, if_true]

theorem readLoop_mismatch {fuel : Nat} {es : List Event} {items rest : List Item} {d : List Byte} {c : Byte}
    (hnext : nextCandidate items = .got (d, c) rest) (hv : verify d c = false) :
    readLoop (fuel + 1) es items = readLoop fuel (es ++ [.checksumMismatch]) rest := by
  simp only [readLoop, hnext, hv, Bool.false_eq_true, if_false]

theorem readLoop_malformed {fuel : Nat} {es : List Event} {items rest : List Item} {d : List Byte} {c : Byte}
    (hnext : nextCandidate items = .got (d, c) rest) (hv : verify d c = true) (hd : decodeFrame d = .malformed) :
    readLoop (fuel + 1) es items = readLoop fuel (es ++ [.malformedFrameData]) rest := by
  simp only [readLoop, hnext, hv, hd, if_true]

/-- The envelope WRITEFRAME sends carries the checksum that verifies. -/
theorem envelope_eq_delim (d : List Byte) : envelope d = [0x7E] ++ enc16 d.length ++ d ++ [checksum d] := by
  rw [envelope_eq, List.append_assoc, List.append_assoc]
  rfl

/-- Settles O37: the garbage is skipped, the envelope's candidate verifies and decodes. -/
theorem garbageThenFrameReturnsTheFrame : Obligations.GarbageThenFrameReturnsTheFrame := by
  intro garbage d f rest hgarbage hlen hd
  refine readLoop_accept (c := checksum d) ?_ (verify_iff.2 rfl) hd
  show nextCandidate (byteItems (garbage ++ envelope d) ++ rest) = _
  rw [byteItems_append, List.append_assoc, nextCandidate_garbage hgarbage, envelope_eq_delim,
    nextCandidate_envelope _ rest hlen]

/-- Settles O38: the first candidate is discarded with its event, the second verifies and decodes. -/
theorem corruptFrameIsSkippedAndTheNextReturned : Obligations.CorruptFrameIsSkippedAndTheNextReturned := by
  intro bad d c f rest hbad hv hlen hd
  show readFrameRef (byteItems ([0x7E] ++ enc16 bad.length ++ bad ++ [c] ++ envelope d) ++ rest) = _
  rw [byteItems_append, List.append_assoc, readFrameRef]
  refine (readLoop_mismatch (nextCandidate_envelope c _ hbad) hv).trans ?_
  have hsecond : nextCandidate (byteItems (envelope d) ++ rest) = .got (d, checksum d) rest := by
    rw [envelope_eq_delim]
    exact nextCandidate_envelope _ rest hlen
  exact readLoop_accept hsecond (verify_iff.2 rfl) hd

end Sys2Proof.Machine
end

section
/-!
PROOFS. The turns of READFRAME compute the reference function (spec 43_framestream_rx.md R112): stage by stage, a turn
takes the item that the reference function takes.
-/

namespace Sys2Proof.Machine

/-! ### Turns that take items -/

/-- `k` turns of READFRAME lead from `s` to `t`, each of them in a phase that takes items, and taking one. -/
inductive Runs : Nat → State → State → Prop
  | refl (s : State) : Runs 0 s s
  | step {k : Nat} {s u t : State} {x : Item} (hr : rxReady s = true) (hx : exec .readFrame s = .next u)
      (hi : s.line.rxItems = x :: u.line.rxItems) (h : Runs k u t) : Runs (k + 1) s t

namespace Runs

variable {k : Nat} {s t : State}

theorem trans {j : Nat} {u : State} (h : Runs j s u) (g : Runs k u t) : Runs (k + j) s t := by
  induction h with
  | refl => exact g
  | step hr hx hi _ ih => exact .step hr hx hi (ih g)

theorem turns (h : Runs k s t) : turns .readFrame k s = .next t := by
  induction h with
  | refl => rfl
  | step _ hx _ _ ih => exact (turns_succ hx).trans ih

/-- Every turn takes exactly one item. -/
theorem length (h : Runs k s t) : k + t.line.rxItems.length = s.line.rxItems.length := by
  induction h with
  | refl => exact Nat.zero_add _
  | step _ _ hi _ ih =>
    rw [hi, List.length_cons]
    omega

theorem consumer (h : Runs k s t) : t.consumer = s.consumer := by
  induction h with
  | refl => rfl
  | step hr hx _ _ ih => exact ih.trans ((execReadFrame_next hx).consumer_eq hr)

/-- Before the last turn the call is in a phase that takes items. -/
theorem before (h : Runs k s t) (j : Nat) (hj : j < k) :
    ∃ u, Machine.turns .readFrame j s = .next u ∧ rxReady u = true ∧ u.consumer = s.consumer := by
  induction h generalizing j with
  | refl => exact absurd hj (Nat.not_lt_zero j)
  | @step k s v t x hr hx _ _ ih =>
    cases j with
    | zero => exact ⟨s, rfl, hr, rfl⟩
    | succ j =>
      obtain ⟨u, hturns, hready, hcons⟩ := ih j (Nat.lt_of_succ_lt_succ hj)
      exact ⟨u, (turns_succ hx).trans hturns, hready, hcons.trans ((execReadFrame_next hx).consumer_eq hr)⟩

end Runs

/-! ### The turns follow a step of the reference function -/

/-- The call is blocked: it wants an item and there is none (R110). -/
def Blocked (s : State) : Prop := s.line.rxItems = [] ∧ rxReady s = true

/-- The call has ended with the transport error `e` (R108). -/
def EndedBy (e : Config.TErr) (s : State) : Prop :=
  s.rx.phase = .done ∧ readResult s = some (.transportError e)

/-- From `s` the turns do what the reference function did to give `x`, without an event: where it got a value they come
to a state of which `P` holds, with the same items left. -/
def Follows {α : Type} (s : State) (x : Taking α) (P : α → State → Prop) : Prop :=
  match x with
  | .got v rest => ∃ k t, Runs k s t ∧ t.events = s.events ∧ t.line.rxItems = rest ∧ P v t
  | .err e rest => ∃ k t, Runs k s t ∧ t.events = s.events ∧ t.line.rxItems = rest ∧ EndedBy e t
  | .blocked => ∃ k t, Runs k s t ∧ Blocked t

section
variable {α β : Type} {s : State} {P : α → State → Prop} {Q : β → State → Prop}

/-- More turns in front. -/
theorem Follows.after {k : Nat} {u : State} {x : Taking α} (hrun : Runs k s u) (hevents : u.events = s.events)
    (h : Follows u x P) : Follows s x P := by
  cases x with
  | got v rest =>
    obtain ⟨j, t, hrun', he, hi, hP⟩ := h
    exact ⟨j + k, t, hrun.trans hrun', he.trans hevents, hi, hP⟩
  | err e rest =>
    obtain ⟨j, t, hrun', he, hi, hP⟩ := h
    exact ⟨j + k, t, hrun.trans hrun', he.trans hevents, hi, hP⟩
  | blocked =>
    obtain ⟨j, t, hrun', hP⟩ := h
    exact ⟨j + k, t, hrun.trans hrun', hP⟩

/-- One step of the reference function after another. -/
theorem Follows.andThen {x : Taking α} {f : α → List Item → Taking β} (h : Follows s x P)
    (hf : ∀ v t, P v t → Follows t (f v t.line.rxItems) Q) : Follows s (x.andThen f) Q := by
  cases x with
  | got v rest =>
    obtain ⟨k, t, hrun, he, rfl, hP⟩ := h
    exact (hf v t hP).after hrun he
  | err e rest => exact h
  | blocked => exact h

/-- `next(s)` where a byte is wanted: without an item the call is blocked, an error token ends it, and what a byte does
is the phase's own. -/
theorem follows_nextByte {P : Byte → State → Prop} (hr : rxReady s = true)
    (hbyte : ∀ b rest, s.line.rxItems = .byte b :: rest →
      ∃ t, exec .readFrame s = .next t ∧ t.events = s.events ∧ t.line.rxItems = rest ∧ P b t) :
    Follows s (nextByte s.line.rxItems) P := by
  cases hi : s.line.rxItems with
  | nil => exact ⟨0, s, .refl s, hi, hr⟩
  | cons x rest =>
    cases x with
    | byte b =>
      obtain ⟨t, hx, he, rfl, hP⟩ := hbyte b rest hi
      exact ⟨1, t, .step hr hx hi (.refl t), he, rfl, hP⟩
    | err e => exact ⟨1, _, .step hr (exec_readFrame_err hr hi) hi (.refl _), rfl, rfl, rfl, rfl⟩

end

/-! ### The stages of one candidate frame -/

theorem follows_hunt {s : State} (hp : s.rx.phase = .hunt) :
    Follows s (hunt s.line.rxItems) fun _ t => t.rx.phase = .lenHi := by
  have hr : rxReady s = true := by simp [rxReady, hp]
  generalize hitems : s.line.rxItems = items
  induction items generalizing s with
  | nil => exact ⟨0, s, .refl s, hitems, hr⟩
  | cons x rest ih =>
    cases x with
    | err e => exact ⟨1, _, .step hr (exec_readFrame_err hr hitems) hitems (.refl _), rfl, rfl, rfl, rfl⟩
    | byte b =>
      obtain ⟨hdelim, hother⟩ := huntDropsBytesUntilTheDelimiter s b rest hp hitems
      rw [hunt]
      split_ifs with hb
      · exact ⟨1, _, .step hr (hdelim hb) hitems (.refl _), rfl, rfl, rfl⟩
      · exact (ih (s := s.setLine { s.line with rxItems := rest }) hp hr rfl).after
          (.step hr (hother hb) hitems (.refl _)) rfl

theorem follows_lenHi {s : State} (hp : s.rx.phase = .lenHi) :
    Follows s (nextByte s.line.rxItems) fun h t => t.rx.phase = .lenLo ∧ t.rx.lenHi = h :=
  follows_nextByte (by simp [rxReady, hp]) fun b rest hi =>
    ⟨_, firstLengthByteIsKept s b rest hp hi, rfl, rfl, rfl, rfl⟩

/-- The bytes `d` of the candidate frame are in `rxbuf` and summed, and `n` more are to come (R103, R104). -/
structure Assembling (d : List Byte) (n : Nat) (s : State) : Prop where
  phase : s.rx.phase = if n = 0 then .csum else .data
  count : s.rx.cnt.toNat + n = s.rx.len.toNat
  bytes : rxBytes s.rxbuf s.rx.cnt.toNat = d
  sum : s.rx.sum = sum8 d

theorem follows_lenLo {s : State} {h : Byte} (hp : s.rx.phase = .lenLo) (hh : s.rx.lenHi = h) :
    Follows s (nextByte s.line.rxItems) fun l t => Assembling [] (dec16 h l).toNat t := by
  refine follows_nextByte (by simp [rxReady, hp]) fun b rest hi => ⟨_, exec_readFrame_lenLo hp hi, rfl, rfl, ?_⟩
  subst hh
  have hzero : dec16 s.rx.lenHi b = 0 ↔ (dec16 s.rx.lenHi b).toNat = 0 := by
    rw [dec16_eq_zero_iff, dec16_toNat]
  exact ⟨if_congr hzero rfl rfl, Nat.zero_add _, rfl, rfl⟩

theorem Assembling.ready {d : List Byte} {n : Nat} {s : State} (h : Assembling d n s) : rxReady s = true := by
  rw [rxReady_iff, h.phase]
  split_ifs <;> exact ⟨RxPhase.noConfusion, RxPhase.noConfusion⟩

/-- One byte of frame data (R104). -/
theorem Assembling.byte {d : List Byte} {n : Nat} {s : State} {b : Byte} {rest : List Item}
    (h : Assembling d (n + 1) s) (hi : s.line.rxItems = .byte b :: rest) :
    ∃ t, exec .readFrame s = .next t ∧ t.events = s.events ∧ t.line.rxItems = rest ∧ Assembling (d ++ [b]) n t := by
  have hcount := h.count
  have hlt : s.rx.cnt.toNat < s.rx.len.toNat := by omega
  have hsucc := cnt_succ_toNat hlt
  have hlast : s.rx.cnt + 1 = s.rx.len ↔ n = 0 := by
    rw [cnt_succ_eq_len_iff hlt]
    omega
  refine ⟨_, (exec_readFrame_data h.phase hi).trans (rxData_setItems b s rest (cnt_lt_bufSize hlt)), rfl, rfl, ?_⟩
  refine ⟨if_congr hlast rfl rfl, ?_, ?_, ?_⟩
  · show (s.rx.cnt + 1).toNat + n = s.rx.len.toNat
    omega
  · show rxBytes (s.rxbuf.store s.rx.cnt.toNat b) (s.rx.cnt + 1).toNat = _
    rw [hsucc, rxBytes_store, h.bytes]
  · show s.rx.sum + b = _
    rw [h.sum, sum8_append, sum8_cons, sum8_nil, add_zero]

theorem follows_nextBytes {d : List Byte} {n : Nat} {s : State} (h : Assembling d n s) :
    Follows s (nextBytes n s.line.rxItems) fun bs t => Assembling (d ++ bs) 0 t := by
  induction n generalizing d s with
  | zero =>
    refine ⟨0, s, .refl s, rfl, rfl, ?_⟩
    show Assembling (d ++ []) 0 s
    rwa [List.append_nil]
  | succ n ih =>
    rw [nextBytes]
    refine (follows_nextByte h.ready fun b rest hi => h.byte hi).andThen fun b t ht => ?_
    refine (ih ht).andThen fun bs u hu => ⟨0, u, .refl u, rfl, rfl, ?_⟩
    rwa [List.append_assoc, List.singleton_append] at hu

/-! ### One candidate frame -/

/-- The frame data of the next candidate frame, its checksum byte not yet taken. -/
def nextData (xs : List Item) : Taking (List Byte) :=
  (hunt xs).andThen fun _ s1 => (nextByte s1).andThen fun h s2 => (nextByte s2).andThen fun l s3 =>
    nextBytes (dec16 h l).toNat s3

theorem Taking.andThen_assoc {α β γ : Type} (x : Taking α) (f : α → List Item → Taking β)
    (g : β → List Item → Taking γ) : (x.andThen f).andThen g = x.andThen fun v rest => (f v rest).andThen g := by
  cases x <;> rfl

theorem nextCandidate_eq (xs : List Item) : nextCandidate xs =
    (nextData xs).andThen fun d s4 => (nextByte s4).andThen fun c s5 => .got (d, c) s5 := by
  simp only [nextCandidate, nextData, Taking.andThen_assoc]

theorem follows_nextData {s : State} (hp : s.rx.phase = .hunt) :
    Follows s (nextData s.line.rxItems) fun d t => Assembling d 0 t :=
  (follows_hunt hp).andThen fun _ _ hp => (follows_lenHi hp).andThen fun _ _ hlen =>
    (follows_lenLo hlen.1 hlen.2).andThen fun _ _ h => follows_nextBytes h

/-- With all its bytes in, the candidate frame is `d`, and the running sum is its sum. -/
theorem Assembling.judged {d : List Byte} {s : State} {c : Byte} {rest : List Item} (h : Assembling d 0 s)
    (hi : s.line.rxItems = .byte c :: rest) : candidate s = d ∧
      exec .readFrame s = .next (rxCsum c (s.setItems rest)) ∧
      judge (s.setItems rest).rx.sum (candidate (s.setItems rest)) c = judge (sum8 d) d c := by
  have hcand : candidate s = d := by rw [candidate, ← h.count, Nat.add_zero, h.bytes]
  refine ⟨hcand, exec_readFrame_csum h.phase hi, ?_⟩
  show judge s.rx.sum (candidate s) c = _
  rw [hcand, h.sum]

/-- The candidate frame is accepted (R105). -/
theorem Assembling.accept {d : List Byte} {s : State} {c : Byte} {rest : List Item} {f : Frame} (h : Assembling d 0 s)
    (hi : s.line.rxItems = .byte c :: rest) (hv : verify d c = true) (hd : decodeFrame d = .ok f) :
    ∃ t, Runs 1 s t ∧ t.events = s.events ∧ t.line.rxItems = rest ∧ t.rx.phase = .done ∧
      readResult t = some (.frame f) := by
  obtain ⟨hcand, hx, hj⟩ := h.judged hi
  rw [rxCsum_accepts (hj.trans (judge_sum8_ok hv hd))] at hx
  exact ⟨_, .step h.ready hx hi (.refl _), rfl, rfl, rfl, readResult_ok rfl (hcand.symm ▸ hd)⟩

/-- The candidate frame is discarded with the event `e`, and the hunt resumes (R106, R107). -/
theorem Assembling.discard {d : List Byte} {s : State} {c : Byte} {rest : List Item} {e : Event} (h : Assembling d 0 s)
    (hi : s.line.rxItems = .byte c :: rest) (hj : judge (sum8 d) d c = some e) :
    ∃ t, Runs 1 s t ∧ t.events = s.events ++ [e] ∧ t.line.rxItems = rest ∧ t.rx.phase = .hunt := by
  obtain ⟨-, hx, hj'⟩ := h.judged hi
  rw [rxCsum_discards (hj'.trans hj)] at hx
  exact ⟨_, .step h.ready hx hi (.refl _), rfl, rfl, rfl⟩

/-! ### The whole call -/

/-- From `s` the turns return what the reference function returns, its events after those of `base`; where it returns
nothing they are blocked. -/
def Returns (base : List Event) (s : State) (r : Option ReadReturn) : Prop :=
  match r with
  | some r => ∃ k t, Runs k s t ∧ t.rx.phase = .done ∧ readResult t = some r.result ∧
      t.events = base ++ r.events ∧ t.line.rxItems = r.rest
  | none => ∃ k t, Runs k s t ∧ Blocked t

theorem Returns.after {base : List Event} {k : Nat} {s u : State} {r : Option ReadReturn} (hrun : Runs k s u)
    (h : Returns base u r) : Returns base s r := by
  cases r with
  | none =>
    obtain ⟨j, t, hrun', hP⟩ := h
    exact ⟨j + k, t, hrun.trans hrun', hP⟩
  | some r =>
    obtain ⟨j, t, hrun', hP⟩ := h
    exact ⟨j + k, t, hrun.trans hrun', hP⟩

theorem readLoop_err {fuel : Nat} {es : List Event} {items rest : List Item} {e : Config.TErr}
    (hnext : nextCandidate items = .err e rest) :
    readLoop (fuel + 1) es items = some ⟨.transportError e, es, rest⟩ := by
  simp only [readLoop, hnext]

theorem readLoop_blocked {fuel : Nat} {es : List Event} {items : List Item} (hnext : nextCandidate items = .blocked) :
    readLoop (fuel + 1) es items = none := by
  simp only [readLoop, hnext]

/-- A discard emits its event and leaves a loop with less to read: every candidate frame takes an item. -/
theorem returns_discard {fuel k : Nat} {base es : List Event} {s t : State} {d : List Byte} {c : Byte}
    {rest : List Item} {e : Event} (hrun : Runs k s t) (hevents : t.events = base ++ es)
    (hfuel : s.line.rxItems.length < fuel + 1) (hasm : Assembling d 0 t) (hi : t.line.rxItems = .byte c :: rest)
    (hj : judge (sum8 d) d c = some e)
    (ih : ∀ {es' : List Event} {u : State}, u.rx.phase = .hunt → u.events = base ++ es' →
      u.line.rxItems.length < fuel → Returns base u (readLoop fuel es' u.line.rxItems)) :
    Returns base s (readLoop fuel (es ++ [e]) rest) := by
  obtain ⟨u, hone, he, rfl, hp⟩ := hasm.discard hi hj
  have hrun := hrun.trans hone
  have hlen := hrun.length
  exact (ih hp (by rw [he, hevents, List.append_assoc]) (by omega)).after hrun

/-- The loop of R112, candidate frame by candidate frame. -/
theorem returns_readLoop (fuel : Nat) {base es : List Event} {s : State} (hp : s.rx.phase = .hunt)
    (hevents : s.events = base ++ es) (hfuel : s.line.rxItems.length < fuel) :
    Returns base s (readLoop fuel es s.line.rxItems) := by
  induction fuel generalizing es s with
  | zero => exact absurd hfuel (Nat.not_lt_zero _)
  | succ fuel ih =>
    have hdata := follows_nextData hp
    have hnext := nextCandidate_eq s.line.rxItems
    cases hx : nextData s.line.rxItems with
    | blocked =>
      rw [hx] at hdata hnext
      rw [readLoop_blocked hnext]
      exact hdata
    | err e rest =>
      rw [hx] at hdata hnext
      obtain ⟨k, t, hrun, he, hrest, hdone, hres⟩ := hdata
      rw [readLoop_err hnext]
      exact ⟨k, t, hrun, hdone, hres, he.trans hevents, hrest⟩
    | got d rest =>
      rw [hx] at hdata hnext
      obtain ⟨k, t, hrun, he, rfl, hasm⟩ := hdata
      rw [Taking.andThen] at hnext
      rw [← he] at hevents
      cases hi : t.line.rxItems with
      | nil =>
        rw [hi] at hnext
        rw [readLoop_blocked hnext]
        exact ⟨k, t, hrun, hi, hasm.ready⟩
      | cons x rest =>
        rw [hi] at hnext
        cases x with
        | err e =>
          have hone := Runs.step hasm.ready (exec_readFrame_err hasm.ready hi) hi (.refl _)
          rw [readLoop_err hnext]
          exact ⟨_, _, hrun.trans hone, rfl, rfl, hevents, rfl⟩
        | byte c =>
          cases hv : verify d c with
          | false =>
            rw [readLoop_mismatch hnext hv]
            exact returns_discard hrun hevents hfuel hasm hi (judge_sum8_mismatch hv) ih
          | true =>
            cases hd : decodeFrame d with
            | ok f =>
              obtain ⟨u, hone, he, hrest, hdone, hres⟩ := hasm.accept hi hv hd
              rw [readLoop_accept hnext hv hd]
              exact ⟨_, u, hrun.trans hone, hdone, hres, he.trans hevents, hrest⟩
            | malformed =>
              rw [readLoop_malformed hnext hv hd]
              exact returns_discard hrun hevents hfuel hasm hi (judge_sum8_malformed hv hd) ih

/-- A blocked call stays as it is (R110). -/
theorem turns_blocked {s : State} (h : Blocked s) (k : Nat) : turns .readFrame k s = .next s := by
  induction k with
  | zero => rfl
  | succ k ih => exact (turns_succ (exec_readFrame_blocked h.2 h.1)).trans ih

/-- Settles O36: the turns follow the reference function's loop; each turn before the last takes an item, and a blocked
call stays blocked. -/
theorem readFrameTurnsComputeTheReference : Obligations.ReadFrameTurnsComputeTheReference := by
  intro s hp
  have h : Returns s.events s (readFrameRef s.line.rxItems) :=
    returns_readLoop _ hp (List.append_nil _).symm (Nat.lt_succ_self _)
  cases hr : readFrameRef s.line.rxItems with
  | some r =>
    rw [hr] at h
    obtain ⟨k, t, hrun, hdone, hres, hevents, hrest⟩ := h
    refine ⟨k, t, hrun.turns, hdone, hres, hevents, hrest, hrest ▸ hrun.length, hrun.consumer, fun j hj => ?_⟩
    obtain ⟨u, hu, hready, -⟩ := hrun.before j hj
    obtain ⟨hidle, hnotDone⟩ := (rxReady_iff u).1 hready
    exact ⟨u, hu, hnotDone, hidle⟩
  | none =>
    rw [hr] at h
    obtain ⟨k, t, hrun, hblocked⟩ := h
    intro j
    obtain hj | hj := Nat.lt_or_ge j k
    · obtain ⟨u, hu, hready, hcons⟩ := hrun.before j hj
      obtain ⟨hidle, hnotDone⟩ := (rxReady_iff u).1 hready
      exact ⟨u, hu, hnotDone, hidle, hcons⟩
    · obtain ⟨n, rfl⟩ := Nat.exists_eq_add_of_le hj
      obtain ⟨hidle, hnotDone⟩ := (rxReady_iff t).1 hblocked.2
      exact ⟨t, (turns_add hrun.turns).trans (turns_blocked hblocked n), hnotDone, hidle, hrun.consumer⟩

end Sys2Proof.Machine
end

section
/-!
PROOFS. The output ports (spec 10_state.md R20 to R23, 30_encoding.md R60): what is up in which phase, and the record of
the Frame presented.
-/

namespace Sys2Proof.Machine

theorem rfCause_transportError {s : State} (h : s.rx.status = .transportError) : rfCause s = some s.rx.cause := if_pos h

theorem txValid_of_txLast {s : State} (h : txLast s = true) : txValid s = true := (Bool.and_eq_true_iff.1 h).1

/-- Settles O40 by each output's own test of the phase; a Frame is presented exactly as `readResult` gives it. -/
theorem outputsFollowThePhases : Obligations.OutputsFollowThePhases :=
  fun s => ⟨rxReady_iff s, beq_iff_eq, beq_iff_eq, rfl, rfCause_transportError, beq_iff_eq, beq_iff_eq, beq_iff_eq, rfl,
    rfl, rfl, txValid_of_txLast, fun _ => rfFrame_eq_some_iff⟩

/-! ### Where the variable part of a decoded Frame stands in its frame data -/

/-- ENCODE puts eleven bytes before a payload, and no TXSTAT is that long, so DECODE read them all. -/
theorem eq_encodeFrame_of_decodeFrame {d : List Byte} {f : Frame} (h : decodeFrame d = .ok f)
    (hlong : 3 < (encodeFrame f).length) : d = encodeFrame f := by
  have henc := encodeFrame_of_decodeFrame h
  split_ifs at henc
  · rw [henc, List.length_take] at hlong
    omega
  · exact henc.symm

theorem payload_of_decodeFrame_txRequest {d : List Byte} {id : Byte} {dest : Addr} {options : Byte}
    {payload : List Byte} (h : decodeFrame d = .ok (.txRequest id dest options payload)) : d.drop 11 = payload := by
  rw [eq_encodeFrame_of_decodeFrame h (by simp [encodeFrame, encodeTxReq_eq]; omega), encodeFrame, encodeTxReq_eq]
  rfl

theorem payload_of_decodeFrame_rxIndicate {d : List Byte} {source : Addr} {rssi options : Byte} {payload : List Byte}
    (h : decodeFrame d = .ok (.rxIndicate source rssi options payload)) : d.drop 11 = payload := by
  rw [eq_encodeFrame_of_decodeFrame h (by simp [encodeFrame, encodeRxInd_eq]; omega), encodeFrame, encodeRxInd_eq]
  rfl

theorem raw_of_decodeFrame_generic {d : List Byte} {tag : Byte} {raw : List Byte}
    (h : decodeFrame d = .ok (.generic tag raw)) : d.drop 1 = raw := by
  obtain ⟨rfl, -⟩ := eq_cons_of_decodeFrame_generic h
  rfl

/-! ### The record presented -/

/-- A part of the candidate frame fits `plen`: `rx.len` has 16 bits. -/
theorem plen_toNat {s : State} {var : List Byte} {k : Nat} (h : (candidate s).drop k = var) :
    (BitVec.ofNat 16 var.length).toNat = var.length := by
  have hlen : var.length ≤ s.rx.len.toNat := by
    rw [← h, List.length_drop, candidate, rxBytes_length]
    exact Nat.sub_le _ _
  rw [BitVec.toNat_ofNat]
  exact Nat.mod_eq_of_lt (hlen.trans_lt s.rx.len.isLt)

/-- Below `plen`, `rf_pdata` is a byte of the candidate frame; beyond it there is none (D33). -/
theorem rfPdata_eq {s : State} {r : RfRecord} {var : List Byte} (hr : rfRecord s = some r)
    (hvar : (candidate s).drop (poff r.kind) = var) (hlen : r.plen.toNat = var.length) (p : Half) :
    rfPdata s p = var[p.toNat]? := by
  simp only [rfPdata, hr, hlen]
  split_ifs with hp
  · have hin : poff r.kind + p.toNat < s.rx.len.toNat := by
      rw [← hvar, List.length_drop, candidate, rxBytes_length] at hp
      omega
    rw [← hvar, List.getElem?_drop, candidate, rxBytes, List.getElem?_map, List.getElem?_range hin]
    rfl
  · exact (List.getElem?_eq_none (not_lt.1 hp)).symm

/-- The address at the port, first wire byte from its top byte (R34). -/
theorem addrToPort_bytes (a : Addr) :
    ((List.range 8).map fun k => (addrToPort a >>> (56 - 8 * k)).setWidth 8) = addrBytes a := by
  rw [← addrBytes_addrOfPort, addrOfPort_addrToPort]

/-- Settles O41 kind by kind: the record's fields are the Frame's, and its variable part is where DECODE found it. -/
theorem variablePartIsReadFromRxbuf : Obligations.VariablePartIsReadFromRxbuf := by
  intro s f hf
  obtain ⟨-, -, hd⟩ := rfFrame_eq_some_iff.1 hf
  have hr : rfRecord s = some (recordOf f) := by rw [rfRecord, hf, Option.map_some]
  refine ⟨recordOf f, hr, ?generic, ?txRequest, ?txStatus, ?rxIndicate⟩
  case generic =>
    rintro tag raw rfl
    have hraw := raw_of_decodeFrame_generic hd
    exact ⟨rfl, rfl, plen_toNat hraw, rfPdata_eq hr hraw (plen_toNat hraw)⟩
  case txRequest =>
    rintro id d0 d1 d2 d3 d4 d5 d6 d7 options payload rfl
    have hpay := payload_of_decodeFrame_txRequest hd
    exact ⟨rfl, rfl, rfl, rfl, ⟨_, rfl, addrToPort_bytes _⟩, plen_toNat hpay, rfPdata_eq hr hpay (plen_toNat hpay)⟩
  case txStatus =>
    rintro id status rfl
    exact ⟨rfl, rfl, rfl, rfl, rfl, fun p => by rw [rfPdata, hr]; exact if_neg (Nat.not_lt_zero _)⟩
  case rxIndicate =>
    rintro a0 a1 a2 a3 a4 a5 a6 a7 rssi options payload rfl
    have hpay := payload_of_decodeFrame_rxIndicate hd
    exact ⟨rfl, rfl, rfl, rfl, ⟨_, rfl, addrToPort_bytes _⟩, plen_toNat hpay, rfPdata_eq hr hpay (plen_toNat hpay)⟩

end Sys2Proof.Machine
end
